-- ==== Sys2Proof/Word.lean ====
section
/-! DEFINITION. The word types: a byte, a T32 halfword, a 32-bit word (every register of the extension "is a
32-bit register", R10) and a 64-bit double word (Xt, R14). -/

namespace Sys2Proof

/-- One byte of the program text. -/
abbrev Byte := BitVec 8

/-- One T32 halfword (R90). -/
abbrev Half := BitVec 16

/-- A 32-bit word: a system register, an AArch32 register, an instruction word (R10). -/
abbrev Word := BitVec 32

/-- A 64-bit double word: an AArch64 register, the program counter (R14). -/
abbrev DWord := BitVec 64

end Sys2Proof
end

