-- ==== Sys2Proof/Machine/Names.lean ====
section
/-! DEFINITION. The names the spec uses: instruction sets, execution states, Exception levels, system registers,
rounding modes, access rights, and the records built from them. -/

namespace Sys2Proof.Machine

/-- The two execution states (R21). -/
inductive ExecState where
  | aarch64
  | aarch32
deriving DecidableEq, Repr, Inhabited

/-- The instruction set a word is decoded in (R90): `ctx.state`, with `ctx.thumb` inside AArch32. -/
inductive Isa where
  | a64
  | a32
  | t32
deriving DecidableEq, Repr, Inhabited

/-- A64 is the instruction set of AArch64; A32 and T32 are those of AArch32 (R90). -/
def Isa.execState : Isa → ExecState
  | .a64 => .aarch64
  | .a32 => .aarch32
  | .t32 => .aarch32

/-- The four Exception levels (R195). -/
inductive El where
  | el0
  | el1
  | el2
  | el3
deriving DecidableEq, Repr, Inhabited

/-- The context `ctx = (state, el, secure)` every access rule takes (R14, R21). At EL3 `secure` is SCR.NS = 0. -/
structure Ctx where
  isa : Isa
  el : El
  secure : Bool
deriving DecidableEq, Repr

/-- The AArch64 names: the six of the extension (R93), and ID_AA64PFR0_EL1, which §2.1 reads (R121). -/
inductive SysReg64 where
  | fpcr
  | fpsr
  | mvfr0El1
  | mvfr1El1
  | mvfr2El1
  | fpexc32El2
  | idAa64pfr0El1
deriving DecidableEq, Repr

/-- The six AArch32 names (R71). FPINST and FPINST2 are no registers of this hardware (R53). -/
inductive SysReg32 where
  | fpsid
  | fpscr
  | mvfr0
  | mvfr1
  | mvfr2
  | fpexc
deriving DecidableEq, Repr

/-- A system register under one of its names, as a fault records it (R186). -/
inductive SysReg where
  | a64 (reg : SysReg64)
  | a32 (reg : SysReg32)
deriving DecidableEq, Repr

/-- Whether an access reads or writes (R186). -/
inductive Access where
  | read
  | write
deriving DecidableEq, Repr

/-- An access right (R14): what `Acc64` and `Acc32` answer. -/
inductive Right where
  | none
  | ro
  | rw
deriving DecidableEq, Repr

/-- An entry of a "Usage constraints" table (R11). -/
inductive Entry where
  | dash
  | config
  | ro
  | rw
deriving DecidableEq, Repr

/-- The four rounding modes (R156). -/
inductive RoundingMode where
  | rn
  | rp
  | rm
  | rz
deriving DecidableEq, Repr, Inhabited

/-- The encoding of the RMode field (R26). -/
def RoundingMode.bits : RoundingMode → BitVec 2
  | .rn => 0b00#2
  | .rp => 0b01#2
  | .rm => 0b10#2
  | .rz => 0b11#2

/-- The rounding mode an RMode field selects (R26). -/
def RoundingMode.ofBits (b : BitVec 2) : RoundingMode :=
  if b = 0b00#2 then .rn else if b = 0b01#2 then .rp else if b = 0b10#2 then .rm else .rz

/-- Four condition flags: F.N to F.V (R25), APSR (R140), PSTATE (R162). -/
structure Nzcv where
  n : Bool
  z : Bool
  c : Bool
  v : Bool
deriving DecidableEq, Repr, Inhabited

/-- The control fields of the field store, FPCR[26:22] (R25, R26). -/
structure FpControl where
  ahp : Bool
  dn : Bool
  fz : Bool
  rmode : RoundingMode
deriving DecidableEq, Repr, Inhabited

/-- The six floating-point exceptions, as cumulative bits (R25, R29) and as a set raised by an operation (R164). -/
structure FpExceptions where
  idc : Bool
  ixc : Bool
  ufc : Bool
  ofc : Bool
  dzc : Bool
  ioc : Bool
deriving DecidableEq, Repr, Inhabited

/-- The floating-point field store `F`: the fifteen fields of R25. -/
structure FieldStore where
  flags : Nzcv
  qc : Bool
  control : FpControl
  exc : FpExceptions
deriving DecidableEq, Repr

/-- The result of a floating-point comparison (R162). -/
inductive Comparison where
  | lessThan
  | equal
  | greaterThan
  | unordered
deriving DecidableEq, Repr, Inhabited

/-- The result of a floating-point comparison no operand of which is a NaN: never unordered (R162). -/
inductive OrderedComparison where
  | lessThan
  | equal
  | greaterThan
deriving DecidableEq, Repr, Inhabited

/-- The two classes R161 makes inputs of the numerics: scalar floating-point (VFP) or Advanced SIMD. -/
inductive FpClass where
  | scalar
  | advSimd
deriving DecidableEq, Repr, Inhabited

/-- The formats floating-point arithmetic has (R168): half precision is not one, "a storage and conversion format only". -/
inductive FpArithFormat where
  | single
  | double
deriving DecidableEq, Repr, Inhabited

/-- The floating-point formats (R168). `altHalf` is half precision under AHP = 1. -/
inductive FpFormat where
  | half
  | altHalf
  | arith (format : FpArithFormat)
deriving DecidableEq, Repr, Inhabited

/-- The kinds of operation the rules tell apart, with the formats of operands and result (`none`: not floating-point numbers).
Half precision, which AHP selects the format of, occurs in conversions alone (R153, R168). -/
inductive FpKind where
  | fromHalf (result : FpArithFormat)
  | toHalf (source : FpArithFormat)
  | floatingPoint (source result : Option FpArithFormat)
  /-- An integer operation, which can saturate (R163). -/
  | integer
deriving DecidableEq, Repr, Inhabited

/-- A data-processing operation as the numerics see it (R150). The spec names no operation, so the operation is a bare
number, with what the rules ask of it. -/
structure FpOperation where
  operation : Nat
  /-- For each element of the result the operand elements it is computed from; a scalar operation has one element. Lane
  numbers and sizes are not in the source (R171): this list is all the rules need of them (log 11). -/
  elements : List (List DWord)
  cls : FpClass
  kind : FpKind
  /-- The operation carries its own rounding and does not use RMode (R156). -/
  ownRounding : Bool
  /-- The operation is a comparison (R162). -/
  compares : Bool
deriving DecidableEq, Repr, Inhabited

/-- A NaN of which nothing is known (R169): its sign, and for each format its fraction less one, so that every NaN of the
format is one of these and none is anything else. -/
structure FreeNaN where
  sign : Bool
  half : Fin 1023
  single : Fin 8388607
  double : Fin 4503599627370495
deriving DecidableEq, Repr, Inhabited

/-- What is open where a NaN operand propagates (R154): which one, if several operands are NaNs; whether it is quieted;
and, in a result format with a longer fraction, the bits the operand has none for (log 23). -/
structure NaNPropagation where
  operand : Nat
  quieted : Bool
  low : Nat
deriving DecidableEq, Repr, Inhabited

/-- What the numerics answer (R150, D19): the bits of each result element, how each element's NaN propagates (R154), the
exceptions raised, whether an element saturated, and the result of a comparison with no NaN operand (R162). -/
structure FpAnswer where
  element : Nat → DWord
  propagation : Nat → NaNPropagation
  raised : FpExceptions
  saturated : Bool
  comparison : OrderedComparison
deriving Inhabited

/-- `P_RES_WRITE` (R9, R12, D3): what a write of a non-reserved value to a RES0 or RES1 field does. -/
inductive ResWrite where
  /-- The written bits are discarded. -/
  | ignore
  /-- The model gives the write no meaning. -/
  | refuse
deriving DecidableEq, Repr

/-- One value for each Exception level. -/
structure ByEl (α : Type) where
  el0 : α
  el1 : α
  el2 : α
  el3 : α
deriving DecidableEq, Repr

/-- The value for one level. -/
def ByEl.get {α : Type} (b : ByEl α) : El → α
  | .el0 => b.el0
  | .el1 => b.el1
  | .el2 => b.el2
  | .el3 => b.el3

/-- The same table with another value for one level. -/
def ByEl.set {α : Type} (b : ByEl α) (a : α) : El → ByEl α
  | .el0 => { b with el0 := a }
  | .el1 => { b with el1 := a }
  | .el2 => { b with el2 := a }
  | .el3 => { b with el3 := a }

/-- One value for each security state. -/
structure BySecurity (α : Type) where
  nonSecure : α
  secure : α
deriving DecidableEq, Repr

/-- The value for one security state (`true` is Secure). -/
def BySecurity.get {α : Type} (b : BySecurity α) : Bool → α
  | false => b.nonSecure
  | true => b.secure

/-- One value for each AArch32 register. -/
structure BySysReg32 (α : Type) where
  fpsid : α
  fpscr : α
  mvfr0 : α
  mvfr1 : α
  mvfr2 : α
  fpexc : α
deriving DecidableEq, Repr

/-- The value for one AArch32 register. -/
def BySysReg32.get {α : Type} (b : BySysReg32 α) : SysReg32 → α
  | .fpsid => b.fpsid
  | .fpscr => b.fpscr
  | .mvfr0 => b.mvfr0
  | .mvfr1 => b.mvfr1
  | .mvfr2 => b.mvfr2
  | .fpexc => b.fpexc

/-- The same value for every level and security state. -/
def everyContext {α : Type} (a : α) : ByEl (BySecurity α) :=
  ⟨⟨a, a⟩, ⟨a, a⟩, ⟨a, a⟩, ⟨a, a⟩⟩

/-- PRESUMED (log 10): the family's condition table, the reset value of the open parameter `ConditionPassed` (D22, G22).
Row `cond`, bit `8N + 4Z + 2C + V`: EQ, NE, CS, CC, MI, PL, VS, VC, HI, LS, GE, LT, GT, LE, AL; row 15 is no condition. -/
def presumedConditionTable : Vector (BitVec 16) 16 :=
  #v[0xF0F0#16, 0x0F0F#16, 0xCCCC#16, 0x3333#16, 0xFF00#16, 0x00FF#16, 0xAAAA#16, 0x5555#16,
     0x0C0C#16, 0xF3F3#16, 0xAA55#16, 0x55AA#16, 0x0A05#16, 0xF5FA#16, 0xFFFF#16, 0x0000#16]

end Sys2Proof.Machine
end

