-- ==== Sys2Proof/Syntax.lean ====
section
/-! DEFINITION. The instructions: one constructor for each of the 47 rows of spec/opcode_table.json, in the table's order.
`rt` is the number in the Rt field; an A32 instruction carries its condition field (R94). The rows of T32 are constructors of
their own: they have no condition and forbid one more register number (R95, R97, R143). -/

namespace Sys2Proof

/-- The instruction set of the extension's register accesses (R90). -/
inductive Instr where
  /-- A64 `MRS Xt, FPCR` (R112). -/
  | mrsFpcr (rt : BitVec 5)
  /-- A64 `MSR FPCR, Xt` (R113). -/
  | msrFpcr (rt : BitVec 5)
  /-- A64 `MRS Xt, FPSR` (R114). -/
  | mrsFpsr (rt : BitVec 5)
  /-- A64 `MSR FPSR, Xt` (R115). -/
  | msrFpsr (rt : BitVec 5)
  /-- A64 `MRS Xt, MVFR0_EL1` (R116). -/
  | mrsMvfr0El1 (rt : BitVec 5)
  /-- A64 `MSR MVFR0_EL1, Xt` (R122). -/
  | msrMvfr0El1 (rt : BitVec 5)
  /-- A64 `MRS Xt, MVFR1_EL1` (R117). -/
  | mrsMvfr1El1 (rt : BitVec 5)
  /-- A64 `MSR MVFR1_EL1, Xt` (R122). -/
  | msrMvfr1El1 (rt : BitVec 5)
  /-- A64 `MRS Xt, MVFR2_EL1` (R118). -/
  | mrsMvfr2El1 (rt : BitVec 5)
  /-- A64 `MSR MVFR2_EL1, Xt` (R122). -/
  | msrMvfr2El1 (rt : BitVec 5)
  /-- A64 `MRS Xt, FPEXC32_EL2` (R119). -/
  | mrsFpexc32El2 (rt : BitVec 5)
  /-- A64 `MSR FPEXC32_EL2, Xt` (R120). -/
  | msrFpexc32El2 (rt : BitVec 5)
  /-- A64 `MRS Xt, ID_AA64PFR0_EL1` (R121). -/
  | mrsIdAa64pfr0El1 (rt : BitVec 5)
  /-- A32 `VMRS Rt, FPSID` (R132). -/
  | vmrsFpsidA32 (cond : BitVec 4) (rt : BitVec 4)
  /-- A32 `VMSR FPSID, Rt` (R142). -/
  | vmsrFpsidA32 (cond : BitVec 4) (rt : BitVec 4)
  /-- A32 `VMRS APSR_nzcv, FPSCR` (R140). -/
  | vmrsApsrFpscrA32 (cond : BitVec 4)
  /-- A32 `VMRS Rt, FPSCR` (R133). -/
  | vmrsFpscrA32 (cond : BitVec 4) (rt : BitVec 4)
  /-- A32 `VMSR FPSCR, Rt` (R134). -/
  | vmsrFpscrA32 (cond : BitVec 4) (rt : BitVec 4)
  /-- A32 `VMRS Rt, MVFR0` (R135). -/
  | vmrsMvfr0A32 (cond : BitVec 4) (rt : BitVec 4)
  /-- A32 `VMSR MVFR0, Rt` (R142). -/
  | vmsrMvfr0A32 (cond : BitVec 4) (rt : BitVec 4)
  /-- A32 `VMRS Rt, MVFR1` (R136). -/
  | vmrsMvfr1A32 (cond : BitVec 4) (rt : BitVec 4)
  /-- A32 `VMSR MVFR1, Rt` (R142). -/
  | vmsrMvfr1A32 (cond : BitVec 4) (rt : BitVec 4)
  /-- A32 `VMRS Rt, MVFR2` (R137). -/
  | vmrsMvfr2A32 (cond : BitVec 4) (rt : BitVec 4)
  /-- A32 `VMSR MVFR2, Rt` (R142). -/
  | vmsrMvfr2A32 (cond : BitVec 4) (rt : BitVec 4)
  /-- A32 `VMRS Rt, FPEXC` (R138). -/
  | vmrsFpexcA32 (cond : BitVec 4) (rt : BitVec 4)
  /-- A32 `VMSR FPEXC, Rt` (R139). -/
  | vmsrFpexcA32 (cond : BitVec 4) (rt : BitVec 4)
  /-- A32 `VMRS Rt, FPINST` (R141). -/
  | vmrsFpinstA32 (cond : BitVec 4) (rt : BitVec 4)
  /-- A32 `VMSR FPINST, Rt` (R141). -/
  | vmsrFpinstA32 (cond : BitVec 4) (rt : BitVec 4)
  /-- A32 `VMRS Rt, FPINST2` (R141). -/
  | vmrsFpinst2A32 (cond : BitVec 4) (rt : BitVec 4)
  /-- A32 `VMSR FPINST2, Rt` (R141). -/
  | vmsrFpinst2A32 (cond : BitVec 4) (rt : BitVec 4)
  /-- T32 `VMRS Rt, FPSID` (R132, R143). -/
  | vmrsFpsidT32 (rt : BitVec 4)
  /-- T32 `VMSR FPSID, Rt` (R142, R143). -/
  | vmsrFpsidT32 (rt : BitVec 4)
  /-- T32 `VMRS APSR_nzcv, FPSCR` (R140, R143). -/
  | vmrsApsrFpscrT32
  /-- T32 `VMRS Rt, FPSCR` (R133, R143). -/
  | vmrsFpscrT32 (rt : BitVec 4)
  /-- T32 `VMSR FPSCR, Rt` (R134, R143). -/
  | vmsrFpscrT32 (rt : BitVec 4)
  /-- T32 `VMRS Rt, MVFR0` (R135, R143). -/
  | vmrsMvfr0T32 (rt : BitVec 4)
  /-- T32 `VMSR MVFR0, Rt` (R142, R143). -/
  | vmsrMvfr0T32 (rt : BitVec 4)
  /-- T32 `VMRS Rt, MVFR1` (R136, R143). -/
  | vmrsMvfr1T32 (rt : BitVec 4)
  /-- T32 `VMSR MVFR1, Rt` (R142, R143). -/
  | vmsrMvfr1T32 (rt : BitVec 4)
  /-- T32 `VMRS Rt, MVFR2` (R137, R143). -/
  | vmrsMvfr2T32 (rt : BitVec 4)
  /-- T32 `VMSR MVFR2, Rt` (R142, R143). -/
  | vmsrMvfr2T32 (rt : BitVec 4)
  /-- T32 `VMRS Rt, FPEXC` (R138, R143). -/
  | vmrsFpexcT32 (rt : BitVec 4)
  /-- T32 `VMSR FPEXC, Rt` (R139, R143). -/
  | vmsrFpexcT32 (rt : BitVec 4)
  /-- T32 `VMRS Rt, FPINST` (R141, R143). -/
  | vmrsFpinstT32 (rt : BitVec 4)
  /-- T32 `VMSR FPINST, Rt` (R141, R143). -/
  | vmsrFpinstT32 (rt : BitVec 4)
  /-- T32 `VMRS Rt, FPINST2` (R141, R143). -/
  | vmrsFpinst2T32 (rt : BitVec 4)
  /-- T32 `VMSR FPINST2, Rt` (R141, R143). -/
  | vmsrFpinst2T32 (rt : BitVec 4)
deriving DecidableEq, Repr

end Sys2Proof
end

