-- ==== Sys2Proof/WellFormed.lean ====
section
/-! DEFINITION. Which instructions are well formed: the register numbers and condition fields R94 and R97 admit. -/

namespace Sys2Proof

/-- The instruction set an instruction belongs to (R90). -/
def Instr.isa : Instr → Machine.Isa
  | .mrsFpcr _ => .a64
  | .msrFpcr _ => .a64
  | .mrsFpsr _ => .a64
  | .msrFpsr _ => .a64
  | .mrsMvfr0El1 _ => .a64
  | .msrMvfr0El1 _ => .a64
  | .mrsMvfr1El1 _ => .a64
  | .msrMvfr1El1 _ => .a64
  | .mrsMvfr2El1 _ => .a64
  | .msrMvfr2El1 _ => .a64
  | .mrsFpexc32El2 _ => .a64
  | .msrFpexc32El2 _ => .a64
  | .mrsIdAa64pfr0El1 _ => .a64
  | .vmrsFpsidA32 _ _ => .a32
  | .vmsrFpsidA32 _ _ => .a32
  | .vmrsApsrFpscrA32 _ => .a32
  | .vmrsFpscrA32 _ _ => .a32
  | .vmsrFpscrA32 _ _ => .a32
  | .vmrsMvfr0A32 _ _ => .a32
  | .vmsrMvfr0A32 _ _ => .a32
  | .vmrsMvfr1A32 _ _ => .a32
  | .vmsrMvfr1A32 _ _ => .a32
  | .vmrsMvfr2A32 _ _ => .a32
  | .vmsrMvfr2A32 _ _ => .a32
  | .vmrsFpexcA32 _ _ => .a32
  | .vmsrFpexcA32 _ _ => .a32
  | .vmrsFpinstA32 _ _ => .a32
  | .vmsrFpinstA32 _ _ => .a32
  | .vmrsFpinst2A32 _ _ => .a32
  | .vmsrFpinst2A32 _ _ => .a32
  | .vmrsFpsidT32 _ => .t32
  | .vmsrFpsidT32 _ => .t32
  | .vmrsApsrFpscrT32 => .t32
  | .vmrsFpscrT32 _ => .t32
  | .vmsrFpscrT32 _ => .t32
  | .vmrsMvfr0T32 _ => .t32
  | .vmsrMvfr0T32 _ => .t32
  | .vmrsMvfr1T32 _ => .t32
  | .vmsrMvfr1T32 _ => .t32
  | .vmrsMvfr2T32 _ => .t32
  | .vmsrMvfr2T32 _ => .t32
  | .vmrsFpexcT32 _ => .t32
  | .vmsrFpexcT32 _ => .t32
  | .vmrsFpinstT32 _ => .t32
  | .vmsrFpinstT32 _ => .t32
  | .vmrsFpinst2T32 _ => .t32
  | .vmsrFpinst2T32 _ => .t32

/-- A32: cond = 1111 "is not this instruction" (R94). -/
def condAdmitted (cond : BitVec 4) : Bool := cond != 0b1111#4

/-- A32: Rt = 15 is admitted only as the APSR form, a constructor of its own (R97). -/
def rtAdmittedA32 (rt : BitVec 4) : Bool := rt != 15#4

/-- T32: Rt = 13 and Rt = 15 are not admitted (R97). -/
def rtAdmittedT32 (rt : BitVec 4) : Bool := rt != 13#4 && rt != 15#4

/-- Every operand is one its encoding admits. A64: every Rt, 31 being XZR (R97). -/
def Instr.wf : Instr → Bool
  | .mrsFpcr _ => true
  | .msrFpcr _ => true
  | .mrsFpsr _ => true
  | .msrFpsr _ => true
  | .mrsMvfr0El1 _ => true
  | .msrMvfr0El1 _ => true
  | .mrsMvfr1El1 _ => true
  | .msrMvfr1El1 _ => true
  | .mrsMvfr2El1 _ => true
  | .msrMvfr2El1 _ => true
  | .mrsFpexc32El2 _ => true
  | .msrFpexc32El2 _ => true
  | .mrsIdAa64pfr0El1 _ => true
  | .vmrsFpsidA32 cond rt => condAdmitted cond && rtAdmittedA32 rt
  | .vmsrFpsidA32 cond rt => condAdmitted cond && rtAdmittedA32 rt
  | .vmrsApsrFpscrA32 cond => condAdmitted cond
  | .vmrsFpscrA32 cond rt => condAdmitted cond && rtAdmittedA32 rt
  | .vmsrFpscrA32 cond rt => condAdmitted cond && rtAdmittedA32 rt
  | .vmrsMvfr0A32 cond rt => condAdmitted cond && rtAdmittedA32 rt
  | .vmsrMvfr0A32 cond rt => condAdmitted cond && rtAdmittedA32 rt
  | .vmrsMvfr1A32 cond rt => condAdmitted cond && rtAdmittedA32 rt
  | .vmsrMvfr1A32 cond rt => condAdmitted cond && rtAdmittedA32 rt
  | .vmrsMvfr2A32 cond rt => condAdmitted cond && rtAdmittedA32 rt
  | .vmsrMvfr2A32 cond rt => condAdmitted cond && rtAdmittedA32 rt
  | .vmrsFpexcA32 cond rt => condAdmitted cond && rtAdmittedA32 rt
  | .vmsrFpexcA32 cond rt => condAdmitted cond && rtAdmittedA32 rt
  | .vmrsFpinstA32 cond rt => condAdmitted cond && rtAdmittedA32 rt
  | .vmsrFpinstA32 cond rt => condAdmitted cond && rtAdmittedA32 rt
  | .vmrsFpinst2A32 cond rt => condAdmitted cond && rtAdmittedA32 rt
  | .vmsrFpinst2A32 cond rt => condAdmitted cond && rtAdmittedA32 rt
  | .vmrsFpsidT32 rt => rtAdmittedT32 rt
  | .vmsrFpsidT32 rt => rtAdmittedT32 rt
  | .vmrsApsrFpscrT32 => true
  | .vmrsFpscrT32 rt => rtAdmittedT32 rt
  | .vmsrFpscrT32 rt => rtAdmittedT32 rt
  | .vmrsMvfr0T32 rt => rtAdmittedT32 rt
  | .vmsrMvfr0T32 rt => rtAdmittedT32 rt
  | .vmrsMvfr1T32 rt => rtAdmittedT32 rt
  | .vmsrMvfr1T32 rt => rtAdmittedT32 rt
  | .vmrsMvfr2T32 rt => rtAdmittedT32 rt
  | .vmsrMvfr2T32 rt => rtAdmittedT32 rt
  | .vmrsFpexcT32 rt => rtAdmittedT32 rt
  | .vmsrFpexcT32 rt => rtAdmittedT32 rt
  | .vmrsFpinstT32 rt => rtAdmittedT32 rt
  | .vmsrFpinstT32 rt => rtAdmittedT32 rt
  | .vmrsFpinst2T32 rt => rtAdmittedT32 rt
  | .vmsrFpinst2T32 rt => rtAdmittedT32 rt

end Sys2Proof
end

