-- ==== Sys2Proof/Decode.lean ====
section
/-! DEFINITION. The decoder of R101, total on any bytes and rejecting by name, and the encoder of R92 to R96. -/

namespace Sys2Proof

open Machine (Isa SysReg64)

/-- Why bytes are no instruction of this spec. -/
inductive DecodeRefusal where
  /-- Fewer bytes than one instruction (R90: each is 32 bits long). -/
  | tooShort
  /-- "Every other word: not in source" (R98, R101). -/
  | notInSource (word : Word)
  /-- The word names a register number R97 excludes. -/
  | rtNotPermitted (word : Word)
deriving DecidableEq, Repr

/-- The selector of an AArch64 system register (R91). -/
structure Selector where
  op0 : BitVec 2
  op1 : BitVec 3
  crn : BitVec 4
  crm : BitVec 4
  op2 : BitVec 3
deriving DecidableEq, Repr

/-- The access encodings of R93; ID_AA64PFR0_EL1's is the spec's G14. -/
def selectorOf : SysReg64 → Selector
  | .fpcr => ⟨0b11#2, 0b011#3, 0b0100#4, 0b0100#4, 0b000#3⟩
  | .fpsr => ⟨0b11#2, 0b011#3, 0b0100#4, 0b0100#4, 0b001#3⟩
  | .mvfr0El1 => ⟨0b11#2, 0b000#3, 0b0000#4, 0b0011#4, 0b000#3⟩
  | .mvfr1El1 => ⟨0b11#2, 0b000#3, 0b0000#4, 0b0011#4, 0b001#3⟩
  | .mvfr2El1 => ⟨0b11#2, 0b000#3, 0b0000#4, 0b0011#4, 0b010#3⟩
  | .fpexc32El2 => ⟨0b11#2, 0b100#3, 0b0101#4, 0b0011#4, 0b000#3⟩
  | .idAa64pfr0El1 => ⟨0b11#2, 0b000#3, 0b0000#4, 0b0100#4, 0b000#3⟩

/-- The system registers that have an A64 selector. -/
def sysRegs64 : List SysReg64 :=
  [.fpcr, .fpsr, .mvfr0El1, .mvfr1El1, .mvfr2El1, .fpexc32El2, .idAa64pfr0El1]

/-- The register a selector names, if any (R101 step 1). -/
def registerOf (sel : Selector) : Option SysReg64 :=
  sysRegs64.find? fun reg => selectorOf reg = sel

/-- The selector fields of an A64 word; op0 is 1:o0 (R92). -/
def selectorField (w : Word) : Selector :=
  ⟨1#1 ++ w.extractLsb' 19 1, w.extractLsb' 16 3, w.extractLsb' 12 4, w.extractLsb' 8 4, w.extractLsb' 5 3⟩

/-- `MRS <Xt>, reg`. -/
def mrsInstr (rt : BitVec 5) : SysReg64 → Instr
  | .fpcr => .mrsFpcr rt
  | .fpsr => .mrsFpsr rt
  | .mvfr0El1 => .mrsMvfr0El1 rt
  | .mvfr1El1 => .mrsMvfr1El1 rt
  | .mvfr2El1 => .mrsMvfr2El1 rt
  | .fpexc32El2 => .mrsFpexc32El2 rt
  | .idAa64pfr0El1 => .mrsIdAa64pfr0El1 rt

/-- `MSR reg, <Xt>`; the table has no such row for ID_AA64PFR0_EL1. -/
def msrInstr (rt : BitVec 5) : SysReg64 → Option Instr
  | .fpcr => some (.msrFpcr rt)
  | .fpsr => some (.msrFpsr rt)
  | .mvfr0El1 => some (.msrMvfr0El1 rt)
  | .mvfr1El1 => some (.msrMvfr1El1 rt)
  | .mvfr2El1 => some (.msrMvfr2El1 rt)
  | .fpexc32El2 => some (.msrFpexc32El2 rt)
  | .idAa64pfr0El1 => none

/-- The decoder of A64 words (R101 step 1). -/
def decodeA64 (w : Word) : Except DecodeRefusal Instr :=
  if w &&& 0xFFF00000#32 = 0xD5300000#32 then
    match registerOf (selectorField w) with
    | some reg => .ok (mrsInstr (w.extractLsb' 0 5) reg)
    | none => .error (.notInSource w)
  else if w &&& 0xFFF00000#32 = 0xD5100000#32 then
    match (registerOf (selectorField w)).bind (msrInstr (w.extractLsb' 0 5)) with
    | some i => .ok i
    | none => .error (.notInSource w)
  else .error (.notInSource w)

/-- Bit [20] of a `VMRS`/`VMSR` word: 1 reads (R94). -/
def lField (w : Word) : Bool := w.getLsbD 20

/-- The `reg` field (R94). -/
def regField (w : Word) : BitVec 4 := w.extractLsb' 16 4

/-- The `Rt` field of an A32 or T32 word (R94). -/
def rtField (w : Word) : BitVec 4 := w.extractLsb' 12 4

/-- The `cond` field of an A32 word (R94). -/
def condField (w : Word) : BitVec 4 := w.extractLsb' 28 4

/-- An instruction whose Rt R97 admits, or the refusal of its word. -/
def permitRt (ok : Bool) (w : Word) (i : Instr) : Except DecodeRefusal Instr :=
  if ok then .ok i else .error (.rtNotPermitted w)

/-- The register numbers of R96, for A32 words: `l` is the L bit. Rt = 15 with FPSCR is the APSR form (R140). -/
def vfpA32 (w : Word) : Except DecodeRefusal Instr :=
  let rt := rtField w
  let ok := rtAdmittedA32 rt
  let cond := condField w
  match lField w, (regField w).toNat with
  | true, 0 => permitRt ok w (.vmrsFpsidA32 cond rt)
  | true, 1 => if rt = 15#4 then .ok (.vmrsApsrFpscrA32 cond) else permitRt ok w (.vmrsFpscrA32 cond rt)
  | true, 5 => permitRt ok w (.vmrsMvfr2A32 cond rt)
  | true, 6 => permitRt ok w (.vmrsMvfr1A32 cond rt)
  | true, 7 => permitRt ok w (.vmrsMvfr0A32 cond rt)
  | true, 8 => permitRt ok w (.vmrsFpexcA32 cond rt)
  | true, 9 => permitRt ok w (.vmrsFpinstA32 cond rt)
  | true, 10 => permitRt ok w (.vmrsFpinst2A32 cond rt)
  | false, 0 => permitRt ok w (.vmsrFpsidA32 cond rt)
  | false, 1 => permitRt ok w (.vmsrFpscrA32 cond rt)
  | false, 5 => permitRt ok w (.vmsrMvfr2A32 cond rt)
  | false, 6 => permitRt ok w (.vmsrMvfr1A32 cond rt)
  | false, 7 => permitRt ok w (.vmsrMvfr0A32 cond rt)
  | false, 8 => permitRt ok w (.vmsrFpexcA32 cond rt)
  | false, 9 => permitRt ok w (.vmsrFpinstA32 cond rt)
  | false, 10 => permitRt ok w (.vmsrFpinst2A32 cond rt)
  | _, _ => .error (.notInSource w)

/-- The register numbers of R96, for T32 words: `l` is the L bit. Rt = 15 with FPSCR is the APSR form (R140). -/
def vfpT32 (w : Word) : Except DecodeRefusal Instr :=
  let rt := rtField w
  let ok := rtAdmittedT32 rt
  match lField w, (regField w).toNat with
  | true, 0 => permitRt ok w (.vmrsFpsidT32 rt)
  | true, 1 => if rt = 15#4 then .ok .vmrsApsrFpscrT32 else permitRt ok w (.vmrsFpscrT32 rt)
  | true, 5 => permitRt ok w (.vmrsMvfr2T32 rt)
  | true, 6 => permitRt ok w (.vmrsMvfr1T32 rt)
  | true, 7 => permitRt ok w (.vmrsMvfr0T32 rt)
  | true, 8 => permitRt ok w (.vmrsFpexcT32 rt)
  | true, 9 => permitRt ok w (.vmrsFpinstT32 rt)
  | true, 10 => permitRt ok w (.vmrsFpinst2T32 rt)
  | false, 0 => permitRt ok w (.vmsrFpsidT32 rt)
  | false, 1 => permitRt ok w (.vmsrFpscrT32 rt)
  | false, 5 => permitRt ok w (.vmsrMvfr2T32 rt)
  | false, 6 => permitRt ok w (.vmsrMvfr1T32 rt)
  | false, 7 => permitRt ok w (.vmsrMvfr0T32 rt)
  | false, 8 => permitRt ok w (.vmsrFpexcT32 rt)
  | false, 9 => permitRt ok w (.vmsrFpinstT32 rt)
  | false, 10 => permitRt ok w (.vmsrFpinst2T32 rt)
  | _, _ => .error (.notInSource w)

/-- The decoder of A32 words (R101 step 2). -/
def decodeA32 (w : Word) : Except DecodeRefusal Instr :=
  if w &&& 0x0FE00FFF#32 = 0x0EE00A10#32 ∧ condAdmitted (condField w) = true then vfpA32 w
  else .error (.notInSource w)

/-- The decoder of T32 halfword pairs hw1:hw2 (R101 step 3). -/
def decodeT32 (w : Word) : Except DecodeRefusal Instr :=
  if w &&& 0xFFE00FFF#32 = 0xEEE00A10#32 then vfpT32 w else .error (.notInSource w)

/-- The decoder: the instruction set is part of the context and never inferred from the bits (R90). -/
def decodeWord : Isa → Word → Except DecodeRefusal Instr
  | .a64, w => decodeA64 w
  | .a32, w => decodeA32 w
  | .t32, w => decodeT32 w

/-- Four bytes, lowest address first, as one number: a little-endian word (R72), or two little-endian halfwords, the first
at the lower address (R95). -/
def wordOfBytes (isa : Isa) (b0 b1 b2 b3 : Byte) : Word :=
  match isa with
  | .t32 => (b1 ++ b0) ++ (b3 ++ b2)
  | _ => (b3 ++ b2) ++ (b1 ++ b0)

/-- A word's bytes, lowest address first (R72, R95). -/
def bytesOfWord (isa : Isa) (w : Word) : List Byte :=
  let byte (n : Nat) : Byte := w.extractLsb' (8 * n) 8
  match isa with
  | .t32 => [byte 2, byte 3, byte 0, byte 1]
  | _ => [byte 0, byte 1, byte 2, byte 3]

/-- The decoder on bytes: total, and it reads exactly the first four. -/
def decodeBytes (isa : Isa) : List Byte → Except DecodeRefusal Instr
  | b0 :: b1 :: b2 :: b3 :: _ => decodeWord isa (wordOfBytes isa b0 b1 b2 b3)
  | _ => .error .tooShort

/-! The encoder. -/

/-- `MRS` (`l = 1`) and `MSR` (`l = 0`) words (R92). -/
def sysWord (l : BitVec 1) (reg : SysReg64) (rt : BitVec 5) : Word :=
  let sel := selectorOf reg
  0b1101010100#10 ++ l ++ 1#1 ++ sel.op0.extractLsb' 0 1 ++ sel.op1 ++ sel.crn ++ sel.crm ++ sel.op2 ++ rt

/-- `VMRS` (`l = 1`) and `VMSR` (`l = 0`) words (R94). -/
def vfpWord (cond : BitVec 4) (l : BitVec 1) (reg rt : BitVec 4) : Word :=
  cond ++ 0b1110111#7 ++ l ++ reg ++ rt ++ 0b1010#4 ++ 0b000#3 ++ 1#1 ++ 0b0000#4

/-- The T32 form: the same bits with `cond` replaced by 1110 (R95). -/
def vfpWordT32 (l : BitVec 1) (reg rt : BitVec 4) : Word := vfpWord 0b1110#4 l reg rt

/-- The word of an instruction; for T32 the number hw1:hw2. -/
def encode : Instr → Word
  | .mrsFpcr rt => sysWord 1 .fpcr rt
  | .msrFpcr rt => sysWord 0 .fpcr rt
  | .mrsFpsr rt => sysWord 1 .fpsr rt
  | .msrFpsr rt => sysWord 0 .fpsr rt
  | .mrsMvfr0El1 rt => sysWord 1 .mvfr0El1 rt
  | .msrMvfr0El1 rt => sysWord 0 .mvfr0El1 rt
  | .mrsMvfr1El1 rt => sysWord 1 .mvfr1El1 rt
  | .msrMvfr1El1 rt => sysWord 0 .mvfr1El1 rt
  | .mrsMvfr2El1 rt => sysWord 1 .mvfr2El1 rt
  | .msrMvfr2El1 rt => sysWord 0 .mvfr2El1 rt
  | .mrsFpexc32El2 rt => sysWord 1 .fpexc32El2 rt
  | .msrFpexc32El2 rt => sysWord 0 .fpexc32El2 rt
  | .mrsIdAa64pfr0El1 rt => sysWord 1 .idAa64pfr0El1 rt
  | .vmrsFpsidA32 cond rt => vfpWord cond 1 0b0000#4 rt
  | .vmsrFpsidA32 cond rt => vfpWord cond 0 0b0000#4 rt
  | .vmrsApsrFpscrA32 cond => vfpWord cond 1 0b0001#4 15#4
  | .vmrsFpscrA32 cond rt => vfpWord cond 1 0b0001#4 rt
  | .vmsrFpscrA32 cond rt => vfpWord cond 0 0b0001#4 rt
  | .vmrsMvfr0A32 cond rt => vfpWord cond 1 0b0111#4 rt
  | .vmsrMvfr0A32 cond rt => vfpWord cond 0 0b0111#4 rt
  | .vmrsMvfr1A32 cond rt => vfpWord cond 1 0b0110#4 rt
  | .vmsrMvfr1A32 cond rt => vfpWord cond 0 0b0110#4 rt
  | .vmrsMvfr2A32 cond rt => vfpWord cond 1 0b0101#4 rt
  | .vmsrMvfr2A32 cond rt => vfpWord cond 0 0b0101#4 rt
  | .vmrsFpexcA32 cond rt => vfpWord cond 1 0b1000#4 rt
  | .vmsrFpexcA32 cond rt => vfpWord cond 0 0b1000#4 rt
  | .vmrsFpinstA32 cond rt => vfpWord cond 1 0b1001#4 rt
  | .vmsrFpinstA32 cond rt => vfpWord cond 0 0b1001#4 rt
  | .vmrsFpinst2A32 cond rt => vfpWord cond 1 0b1010#4 rt
  | .vmsrFpinst2A32 cond rt => vfpWord cond 0 0b1010#4 rt
  | .vmrsFpsidT32 rt => vfpWordT32 1 0b0000#4 rt
  | .vmsrFpsidT32 rt => vfpWordT32 0 0b0000#4 rt
  | .vmrsApsrFpscrT32 => vfpWordT32 1 0b0001#4 15#4
  | .vmrsFpscrT32 rt => vfpWordT32 1 0b0001#4 rt
  | .vmsrFpscrT32 rt => vfpWordT32 0 0b0001#4 rt
  | .vmrsMvfr0T32 rt => vfpWordT32 1 0b0111#4 rt
  | .vmsrMvfr0T32 rt => vfpWordT32 0 0b0111#4 rt
  | .vmrsMvfr1T32 rt => vfpWordT32 1 0b0110#4 rt
  | .vmsrMvfr1T32 rt => vfpWordT32 0 0b0110#4 rt
  | .vmrsMvfr2T32 rt => vfpWordT32 1 0b0101#4 rt
  | .vmsrMvfr2T32 rt => vfpWordT32 0 0b0101#4 rt
  | .vmrsFpexcT32 rt => vfpWordT32 1 0b1000#4 rt
  | .vmsrFpexcT32 rt => vfpWordT32 0 0b1000#4 rt
  | .vmrsFpinstT32 rt => vfpWordT32 1 0b1001#4 rt
  | .vmsrFpinstT32 rt => vfpWordT32 0 0b1001#4 rt
  | .vmrsFpinst2T32 rt => vfpWordT32 1 0b1010#4 rt
  | .vmsrFpinst2T32 rt => vfpWordT32 0 0b1010#4 rt

/-- The bytes of an instruction, lowest address first. -/
def encodeBytes (i : Instr) : List Byte := bytesOfWord i.isa (encode i)

/-! The opcode table's view of the decoder. -/

/-- Which instruction set a bare number of the opcode table is read in: the table numbers A64 words, A32 words and T32 pairs
hw1:hw2 alike as 32 bits. A number that the A64 row masks match is an A64 word; one that the T32 decoder takes is a T32 pair
(an A32 word with cond = 1110 has the same number); every other is an A32 word. Log 5. -/
def tableIsa (w : Word) : Isa :=
  if w &&& 0xFFD00000#32 = 0xD5100000#32 then .a64
  else match decodeT32 w with
    | .ok _ => .t32
    | .error _ => .a32

/-- The 32-bit number of a row whose `nbits` bits are `w`, every bit above them 0. -/
def tableWord (nbits w : Nat) : Word := BitVec.ofNat 32 (w % 2 ^ nbits)

/-- The instruction the decoder reads from the opcode table's number `w`, laid out as the hardware stores it. -/
def decodeTableWord (nbits w : Nat) : Option Instr :=
  let word := tableWord nbits w
  match decodeBytes (tableIsa word) (bytesOfWord (tableIsa word) word) with
  | .ok i => some i
  | .error _ => none

end Sys2Proof
end

