-- ==== Sys2Proof/Config.lean ====
section
/-! DEFINITION. What the spec leaves to the implementation and gives no value for: constants WITHOUT A BODY, so that
nothing can be proved of their values (00_scope R9). The open parameters a run must be able to evaluate (access enables, the
condition check, the levels) are plain data in `State.platform` instead. -/

namespace Sys2Proof

/-- `P_ID_AA64PFR0` (R121, D21): what ID_AA64PFR0_EL1 holds. "The model must not assume a value." Log 3. -/
opaque Config.idAa64pfr0 : DWord

/-- The program counter after an instruction at the top of the address space. "Wrap-around [is] outside the
source" (R23). Log 4. -/
opaque Config.pcPastTop : DWord → DWord

/-- `FpNumerics` (R150, D19): total in the operation, the control fields in force and the execution state; no law beyond
what the operations of Machine/FpClass.lean do with its answer. Log 11. -/
opaque Config.fpNumerics : Machine.FpOperation → Machine.FpControl → Machine.ExecState → Machine.FpAnswer

/-- The Default NaN, a NaN whose bit pattern the source does not give: "a model should hold this in the `FpNumerics` record,
not in a rule" (R169). Log 11. -/
opaque Config.defaultNaN : Machine.FreeNaN

/-- `P_DATA_BIG_ENDIAN` (R72, D14): kept open; no rule of the spec uses it. -/
opaque Config.dataBigEndian : Bool

/-- `P_NCORES` (R9, D8): one or more, otherwise open; the model is one core (R202). -/
opaque Config.nCores : ℕ+

end Sys2Proof
end

