-- ==== Sys2Proof/Machine/State.lean ====
section
/-! DEFINITION. The state of one core (R20 to R25), plain data, with the reasons a step can stop and the state after
reset (R56, R57, R211). The identification words are constants (R20 c) and stand in Machine/Views.lean. -/

namespace Sys2Proof.Machine

/-- The loaded program text (R80): (address, byte) pairs, addresses strictly rising. An address it does not list is
outside the loaded program and reads as no byte at all (log 6). -/
abbrev Memory := List Host.Cell

/-- The open parameters of R9 that rules read, as plain data no instruction writes. A statement that does not name a
value here holds for every value. -/
structure Platform where
  /-- `P_EL_IMPLEMENTED` (D9). -/
  elImplemented : ByEl Bool
  /-- `P_EL_STATE` (D9): the execution state each level uses. -/
  elState : ByEl ExecState
  /-- `A64FpAccessEnabled` (D7). -/
  a64FpEnabled : ByEl (BySecurity Bool)
  /-- The CPACR, NSACR and HCPTR conditions of `A32FpAccessEnabled` (D6, R191); FPEXC.EN is state. -/
  a32FpEnabled : BySysReg32 (ByEl (BySecurity Bool))
  /-- `ConditionPassed` (D22): row `cond`, bit `8N + 4Z + 2C + V` of the APSR flags. -/
  condTable : Vector (BitVec 16) 16
  /-- `P_RES_WRITE` (R12, D3). -/
  resWrite : ResWrite
deriving DecidableEq, Repr

/-- The state of the core. -/
structure State where
  /-- Instruction set, Exception level, security state (R21, R90). No instruction changes it. -/
  ctx : Ctx
  /-- The program counter (R23): 64 bits in AArch64; in AArch32 the low 32. -/
  pc : BitVec 64
  /-- X0 to X30 (R22). -/
  x : Vector (BitVec 64) 31
  /-- R0 to R14 (R22). -/
  r : Vector (BitVec 32) 15
  /-- APSR.NZCV, the destination of `VMRS APSR_nzcv, FPSCR` (R140). A field of its own beside `pstate`: whether the two are
  one storage across a change of execution state is not in the spec; DESIGN CHOICE (log 19). -/
  apsr : Nzcv
  /-- PSTATE.NZCV, which AArch64 floating-point comparisons set (R55, R162). Apart from `apsr` (log 19). -/
  pstate : Nzcv
  /-- The Advanced SIMD and floating-point register bank, 32 x 64 bits (R24). -/
  bank : Vector (BitVec 64) 32
  /-- The floating-point field store (R25), seen as FPCR, FPSR and FPSCR. -/
  f : FieldStore
  /-- EN of FPEXC and FPEXC32_EL2 (R20 b, R50). -/
  en : Bool
  /-- The model's own field: the open parameters (R9). -/
  platform : Platform
  /-- The loaded program text (R71 c, R80). -/
  mem : Memory
deriving DecidableEq, Repr

/-- Why the machine stops with a fault. -/
inductive Fault where
  /-- `raise UndefinedInstruction(reg, ctx)` (R186): raised by a register access whose right is NONE. It stands for an
  Undefined Instruction exception or a trap to a higher level, which the spec does not tell apart and whose entry it does
  not describe (R188). Safe: the model stops where the chip would run a handler. -/
  | undefinedInstruction (reg : SysReg) (access : Access) (ctx : Ctx)
  /-- An Advanced SIMD or VFP data-processing operation that is not enabled, or a short-vector operation (R166, R167,
  R183): raised by the class operation of Machine/FpClass.lean alone. Safe, for the same reason. -/
  | undefinedDataProcessing (ctx : Ctx)
  /-- Stuck: an instruction fetch whose address is not in the loaded program (R23): raised by the fetch. Safe. -/
  | fetchOutsideProgram (pc : BitVec 64)
deriving DecidableEq, Repr

/-- Why the machine gives no meaning. -/
inductive Refusal where
  /-- An instruction with no meaning yet: raised by exec's refused arms alone. Safe. -/
  | notModelled (mnemonic : String)
  /-- A program counter not aligned for its instruction set (R73): raised by the fetch. Safe. -/
  | pcMisaligned
  /-- A word that is no instruction of this spec (R98, R101): raised by the decoder. Safe. -/
  | notInSource (word : BitVec 32)
  /-- A word naming a register number R97 excludes (R187): raised by the decoder. Safe. -/
  | rtNotPermitted (word : BitVec 32)
  /-- Operands no encoding admits (R94, R97): raised by a meaning on an ill-formed instruction, which the decoder never
  gives. Safe. -/
  | operandNotPermitted
  /-- An instruction of another instruction set than the context's (R90): raised by a meaning; the decoder never gives
  one. Safe. -/
  | wrongInstructionSet
  /-- `refuse("write to read-only register")` (R122, R142): raised by `MSR`/`VMSR` of an identification register. Safe. -/
  | readOnlyRegister (reg : SysReg)
  /-- `refuse("reserved field written")` (R111, R131): raised by an allowed `MSR`/`VMSR` whose value has a 1 in a RES0 or a 0
  in a RES1 position, where `P_RES_WRITE` is `refuse`. Safe. -/
  | reservedFieldWritten (reg : SysReg)
  /-- `refuse("FPINST/FPINST2 access is UNPREDICTABLE")` (R141): raised by those four instructions. Safe. -/
  | fpinstUnpredictable
deriving DecidableEq, Repr

/-- The field store after reset: every field 0 (R56). -/
def FieldStore.reset : FieldStore :=
  { flags := ⟨false, false, false, false⟩
    qc := false
    control := ⟨false, false, false, .rn⟩
    exc := ⟨false, false, false, false, false, false⟩ }

/-- The state after reset (R211) for a reset context, program counter and platform, the open `P_RESET_CTX` (R57, R213).
The field store and EN are the spec's (R56); the general-purpose registers, APSR, PSTATE and the bank have no reset value in
the spec and are zero here (log 1). -/
def State.resetIn (ctx : Ctx) (pc : BitVec 64) (platform : Platform) : State :=
  { ctx := ctx
    pc := pc
    x := Vector.replicate 31 0#64
    r := Vector.replicate 15 0#32
    apsr := ⟨false, false, false, false⟩
    pstate := ⟨false, false, false, false⟩
    bank := Vector.replicate 32 0#64
    f := FieldStore.reset
    en := false
    platform := platform
    mem := [] }

/-- The open parameters the model's reset names (logs 2, 8, 9, 10). -/
def Platform.reset : Platform :=
  { elImplemented := ⟨true, true, true, true⟩
    elState := ⟨.aarch64, .aarch64, .aarch64, .aarch64⟩
    a64FpEnabled := everyContext true
    a32FpEnabled := ⟨everyContext true, everyContext true, everyContext true, everyContext true, everyContext true,
      everyContext true⟩
    condTable := presumedConditionTable
    resWrite := .ignore }

/-- The state after reset, in the reset context the model names: A64, EL3, Secure, pc 0 (log 7). -/
def State.reset : State := State.resetIn ⟨.a64, .el3, true⟩ 0#64 Platform.reset

end Sys2Proof.Machine
end

