-- ==== Sys2Proof/Machine/Operands.lean ====
section
/-! DEFINITION. The operand forms (R14, R22, R97): Xt with XZR, Rt, and the two encodings an AArch32 instruction can have. -/

namespace Sys2Proof.Machine

/-- `x[t]`: X0 to X30; number 31 is XZR and reads as 0 (R14). -/
def State.readX (s : State) (t : BitVec 5) : DWord :=
  if h : t.toNat < 31 then s.x[t.toNat] else 0#64

/-- `x[t] <- v`: a write to number 31 is discarded (R14). -/
def State.writeX (s : State) (t : BitVec 5) (v : DWord) : State :=
  if h : t.toNat < 31 then { s with x := s.x.set t.toNat v } else s

/-- `r[t]`, t in 0..14 (R14). Number 15 is no register operand (R97): no meaning reads it. -/
def State.readR (s : State) (t : BitVec 4) : Word :=
  if h : t.toNat < 15 then s.r[t.toNat] else 0#32

/-- `r[t] <- v`, t in 0..14 (R14). Number 15 is no register operand (R97): no meaning writes it. -/
def State.writeR (s : State) (t : BitVec 4) (v : Word) : State :=
  if h : t.toNat < 15 then { s with r := s.r.set t.toNat v } else s

/-- How an AArch32 access is encoded: A32 with its condition field (R94), or T32 without one (R95, R143). -/
inductive Form32 where
  | a32 (cond : BitVec 4)
  | t32
deriving DecidableEq, Repr

/-- The instruction set of a form. -/
def Form32.isa : Form32 → Isa
  | .a32 _ => .a32
  | .t32 => .t32

/-- The form's own operand is admitted: cond = 1111 is not this instruction (R94). -/
def Form32.condAdmitted : Form32 → Bool
  | .a32 cond => Sys2Proof.condAdmitted cond
  | .t32 => true

/-- The register number is admitted (R97). -/
def Form32.rtAdmitted (form : Form32) (rt : BitVec 4) : Bool :=
  match form with
  | .a32 _ => rtAdmittedA32 rt
  | .t32 => rtAdmittedT32 rt

end Sys2Proof.Machine
end

