-- ==== Sys2Proof/Machine/Flags.lean ====
section
/-! DEFINITION. Every flag computation the spec gives: the condition check, the comparison flags, the sticky bits, and the
control fields in force for an operation. -/

namespace Sys2Proof.Machine

/-- The four flags as a number, N most significant: `0bNZCV` (R162). -/
def Nzcv.bits (f : Nzcv) : BitVec 4 :=
  BitVec.ofBool f.n ++ BitVec.ofBool f.z ++ BitVec.ofBool f.c ++ BitVec.ofBool f.v

/-- `ConditionPassed(cond, ctx)` (R130, D22): always for cond = 1110; for every other condition the open parameter, asked
about the APSR flags. -/
def conditionPassed (s : State) (cond : BitVec 4) : Bool :=
  cond == 0b1110#4 || (s.platform.condTable[cond.toNat]'cond.isLt).getLsbD s.apsr.bits.toNat

/-- The condition of a form: T32 forms stand outside an IT block and always execute (R143, D22). -/
def Form32.passes (form : Form32) (s : State) : Bool :=
  match form with
  | .a32 cond => conditionPassed s cond
  | .t32 => true

/-- One of the three results a comparison without a NaN operand has, among all four (R162). -/
def OrderedComparison.result : OrderedComparison → Comparison
  | .lessThan => .lessThan
  | .equal => .equal
  | .greaterThan => .greaterThan

/-- The flags a comparison result sets (R162). -/
def Comparison.flags : Comparison → Nzcv
  | .lessThan => ⟨true, false, false, false⟩
  | .equal => ⟨false, true, true, false⟩
  | .greaterThan => ⟨false, false, true, false⟩
  | .unordered => ⟨false, false, true, true⟩

/-- Where a comparison's flags go (R162): the field store in AArch32, PSTATE in AArch64. -/
def State.writeComparison (s : State) (result : Comparison) : State :=
  match s.ctx.isa.execState with
  | .aarch32 => { s with f := { s.f with flags := result.flags } }
  | .aarch64 => { s with pstate := result.flags }

/-- The cumulative bits after a set of exceptions: each raised one is set, none is cleared (R164). -/
def FpExceptions.accumulate (old raised : FpExceptions) : FpExceptions :=
  { idc := old.idc || raised.idc
    ixc := old.ixc || raised.ixc
    ufc := old.ufc || raised.ufc
    ofc := old.ofc || raised.ofc
    dzc := old.dzc || raised.dzc
    ioc := old.ioc || raised.ioc }

/-- An operation that raises the set `raised` (R164). -/
def FieldStore.raiseExceptions (f : FieldStore) (raised : FpExceptions) : FieldStore :=
  { f with exc := f.exc.accumulate raised }

/-- An Advanced SIMD integer operation in which an element saturated, or none did (R163). -/
def FieldStore.recordSaturation (f : FieldStore) (saturated : Bool) : FieldStore :=
  { f with qc := f.qc || saturated }

/-- The control fields in force for an operation: AArch32 Advanced SIMD arithmetic always uses Default NaN, Flush-to-zero
and Round to Nearest (R158, R159, R160); every other operation uses the fields as they are (R161). Whether a conversion is
"arithmetic" is not in the spec: here every AArch32 Advanced SIMD operation is, DESIGN CHOICE (log 20). -/
def effectiveControl (state : ExecState) (cls : FpClass) (control : FpControl) : FpControl :=
  match state, cls with
  | .aarch32, .advSimd => { control with dn := true, fz := true, rmode := .rn }
  | _, _ => control

end Sys2Proof.Machine
end

