-- ==== Sys2Proof/Machine/Views.lean ====
section
/-! DEFINITION. The registers as 32-bit words over the field store (R26, R29, R38, R43, R50), the identification constants
(R32, R34, R36, R41)
and the fields a write changes (R113, R115, R120, R134, R139). -/

namespace Sys2Proof.Machine

/-- FPCR (R26): RES0, AHP, DN, FZ, RMode, RES0. -/
def fpcrView (f : FieldStore) : Word :=
  0#5 ++ BitVec.ofBool f.control.ahp ++ BitVec.ofBool f.control.dn ++ BitVec.ofBool f.control.fz
    ++ f.control.rmode.bits ++ 0#22

/-- FPSR (R29): N, Z, C, V, QC, RES0, IDC, RES0, IXC, UFC, OFC, DZC, IOC. -/
def fpsrView (f : FieldStore) : Word :=
  BitVec.ofBool f.flags.n ++ BitVec.ofBool f.flags.z ++ BitVec.ofBool f.flags.c ++ BitVec.ofBool f.flags.v
    ++ BitVec.ofBool f.qc ++ 0#19 ++ BitVec.ofBool f.exc.idc ++ 0#2 ++ BitVec.ofBool f.exc.ixc
    ++ BitVec.ofBool f.exc.ufc ++ BitVec.ofBool f.exc.ofc ++ BitVec.ofBool f.exc.dzc ++ BitVec.ofBool f.exc.ioc

/-- FPSCR is both (R43). -/
def fpscrView (f : FieldStore) : Word := fpsrView f ||| fpcrView f

/-- FPEXC and FPEXC32_EL2 (R38, R50): EX is RES0, EN, RES0, bits [10:8] RES1, RES0. -/
def fpexcView (en : Bool) : Word := 0#1 ++ BitVec.ofBool en ++ 0#19 ++ 0b111#3 ++ 0#8

/-- MVFR0 and MVFR0_EL1 (R32, R46): FPRound, FPShVec, FPSqrt, FPDivide, FPTrap, FPDP, FPSP, SIMDReg. -/
def mvfr0Word : Word := 0x1#4 ++ 0x0#4 ++ 0x1#4 ++ 0x1#4 ++ 0x0#4 ++ 0x2#4 ++ 0x2#4 ++ 0x2#4

/-- MVFR1 and MVFR1_EL1 (R34, R47): SIMDFMAC, FPHP, SIMDHP, SIMDSP, SIMDInt, SIMDLS, FPDNaN, FPFtZ. -/
def mvfr1Word : Word := 0x1#4 ++ 0x2#4 ++ 0x1#4 ++ 0x1#4 ++ 0x1#4 ++ 0x1#4 ++ 0x1#4 ++ 0x1#4

/-- MVFR2 and MVFR2_EL1 (R36, R48): RES0, FPMisc, SIMDMisc. -/
def mvfr2Word : Word := 0#24 ++ 0x4#4 ++ 0x3#4

/-- FPSID (R41): Implementer, SW, Subarchitecture, Part number, Variant, Revision (r0p4). -/
def fpsidWord : Word := 0x41#8 ++ 0#1 ++ 0x03#7 ++ 0x40#8 ++ 0x3#4 ++ 0x4#4

/-- `View(sysreg)` in AArch64, zero-extended to Xt (R110); ID_AA64PFR0_EL1 is the open 64-bit value (R121). -/
def view64 (s : State) : SysReg64 → DWord
  | .fpcr => (fpcrView s.f).setWidth 64
  | .fpsr => (fpsrView s.f).setWidth 64
  | .mvfr0El1 => mvfr0Word.setWidth 64
  | .mvfr1El1 => mvfr1Word.setWidth 64
  | .mvfr2El1 => mvfr2Word.setWidth 64
  | .fpexc32El2 => (fpexcView s.en).setWidth 64
  | .idAa64pfr0El1 => Config.idAa64pfr0

/-- `View(spec_reg)` in AArch32 (R130). -/
def view32 (s : State) : SysReg32 → Word
  | .fpsid => fpsidWord
  | .fpscr => fpscrView s.f
  | .mvfr0 => mvfr0Word
  | .mvfr1 => mvfr1Word
  | .mvfr2 => mvfr2Word
  | .fpexc => fpexcView s.en

/-- The control fields of a written word (R113): the other bits are dropped. -/
def controlOfWord (w : Word) : FpControl :=
  { ahp := w.getLsbD 26
    dn := w.getLsbD 25
    fz := w.getLsbD 24
    rmode := RoundingMode.ofBits (w.extractLsb' 22 2) }

/-- The condition flags of a written word (R115). -/
def flagsOfWord (w : Word) : Nzcv := ⟨w.getLsbD 31, w.getLsbD 30, w.getLsbD 29, w.getLsbD 28⟩

/-- The cumulative exception bits of a written word (R115). -/
def exceptionsOfWord (w : Word) : FpExceptions :=
  { idc := w.getLsbD 7
    ixc := w.getLsbD 4
    ufc := w.getLsbD 3
    ofc := w.getLsbD 2
    dzc := w.getLsbD 1
    ioc := w.getLsbD 0 }

/-- `WriteFields(FPCR, v32)` (R113). -/
def writeFpcr (w : Word) (f : FieldStore) : FieldStore := { f with control := controlOfWord w }

/-- `WriteFields(FPSR, v32)` (R115). -/
def writeFpsr (w : Word) (f : FieldStore) : FieldStore :=
  { f with flags := flagsOfWord w, qc := w.getLsbD 27, exc := exceptionsOfWord w }

/-- `WriteFields(FPSCR, v32)` (R134): all fifteen fields. -/
def writeFpscr (w : Word) (_ : FieldStore) : FieldStore :=
  { flags := flagsOfWord w, qc := w.getLsbD 27, control := controlOfWord w, exc := exceptionsOfWord w }

/-- `WriteFields(FPEXC, v32)` and of FPEXC32_EL2 (R120, R139): EN. -/
def enOfWord (w : Word) : Bool := w.getLsbD 30

/-- `Res0Mask` (R111, R131). No write reaches a read-only register (R122, R142). -/
def res0Mask : SysReg → Word
  | .a64 .fpcr => 0xF83FFFFF#32
  | .a64 .fpsr => 0x07FFFF60#32
  | .a32 .fpscr => 0x003FFF60#32
  | .a64 .fpexc32El2 | .a32 .fpexc => 0xBFFFF8FF#32
  | .a64 .mvfr0El1 | .a64 .mvfr1El1 | .a64 .mvfr2El1 | .a64 .idAa64pfr0El1 => 0#32
  | .a32 .fpsid | .a32 .mvfr0 | .a32 .mvfr1 | .a32 .mvfr2 => 0#32

/-- `Res1Mask` (R111, R131). -/
def res1Mask : SysReg → Word
  | .a64 .fpexc32El2 | .a32 .fpexc => 0x00000700#32
  | _ => 0#32

/-- The word has a 1 in a RES0 or a 0 in a RES1 position (R131). -/
def reservedBroken (reg : SysReg) (w : Word) : Bool :=
  w &&& res0Mask reg != 0#32 || w &&& res1Mask reg != res1Mask reg

/-- `bad` of an `MSR`: a reserved position, or a bit of Xt[63:32], which are RES0 positions too (R111, D11). -/
def badWrite64 (reg : SysReg64) (v : DWord) : Bool :=
  v.extractLsb' 32 32 != 0#32 || reservedBroken (.a64 reg) (v.setWidth 32)

/-- `bad and P_RES_WRITE == refuse` (R111, R131). -/
def State.refusesWrite (s : State) (bad : Bool) : Bool := bad && s.platform.resWrite == .refuse

/-- What writing a word to an AArch64 register changes (R111): only the named, writable fields. A read-only register has no
writable field. -/
def writeFields64 (w : Word) (s : State) : SysReg64 → State
  | .fpcr => { s with f := writeFpcr w s.f }
  | .fpsr => { s with f := writeFpsr w s.f }
  | .fpexc32El2 => { s with en := enOfWord w }
  | .mvfr0El1 | .mvfr1El1 | .mvfr2El1 | .idAa64pfr0El1 => s

/-- What writing a word to an AArch32 register changes (R131): only the named, writable fields. -/
def writeFields32 (w : Word) (s : State) : SysReg32 → State
  | .fpscr => { s with f := writeFpscr w s.f }
  | .fpexc => { s with en := enOfWord w }
  | .fpsid | .mvfr0 | .mvfr1 | .mvfr2 => s

end Sys2Proof.Machine
end

