-- ==== Sys2Proof/Machine/Access.lean ====
section
/-! DEFINITION. The access-right functions `Acc64` and `Acc32` (R60), the tables they look up, and the enables they apply. -/

namespace Sys2Proof.Machine

/-- The AArch64 tables (R27, R30, R33, R35, R37, R39), EL3 and EL1 having the same entry in both security states.
ID_AA64PFR0_EL1 takes MVFR0_EL1's row (R121). -/
def table64 : SysReg64 → El → Right
  | .fpcr, _ | .fpsr, _ => .rw
  | .mvfr0El1, .el0 | .mvfr1El1, .el0 | .mvfr2El1, .el0 | .idAa64pfr0El1, .el0 => .none
  | .mvfr0El1, _ | .mvfr1El1, _ | .mvfr2El1, _ | .idAa64pfr0El1, _ => .ro
  | .fpexc32El2, .el0 | .fpexc32El2, .el1 => .none
  | .fpexc32El2, .el2 | .fpexc32El2, .el3 => .rw

/-- `A64FpAccessEnabled(ctx)`, the open parameter (D7). -/
def a64FpAccessEnabled (s : State) : Bool := (s.platform.a64FpEnabled.get s.ctx.el).get s.ctx.secure

/-- `Acc64(reg, ctx)` (R60). -/
def acc64 (reg : SysReg64) (s : State) : Right :=
  if a64FpAccessEnabled s then table64 reg s.ctx.el else .none

/-- The register's own type (R60 step 3). -/
def type32 : SysReg32 → Right
  | .fpscr | .fpexc => .rw
  | .fpsid | .mvfr0 | .mvfr1 | .mvfr2 => .ro

/-- The fixed entry of a register in a Secure column (R42, R44, R49, R51). -/
def fixedEntry : SysReg32 → Entry
  | .fpscr | .fpexc => .rw
  | .fpsid | .mvfr0 | .mvfr1 | .mvfr2 => .ro

/-- The AArch32 tables (R42, R44, R49, R51): `-` at EL0 but for FPSCR; `Config` in the Non-secure columns, at EL2 and at
EL3 with SCR.NS = 1; the fixed right in the Secure ones. -/
def table32 (reg : SysReg32) (el : El) (secure : Bool) : Entry :=
  match el, secure with
  | .el0, false => if reg = .fpscr then .config else .dash
  | .el0, true => if reg = .fpscr then .rw else .dash
  | .el1, false | .el3, false => .config
  | .el1, true | .el3, true => fixedEntry reg
  | .el2, _ => .config

/-- Whether access "depends on ... FPEXC.EN": FPSCR, MVFR0, MVFR1 and MVFR2 do, FPSID and FPEXC do not (R52). -/
def dependsOnEn : SysReg32 → Bool
  | .fpscr | .mvfr0 | .mvfr1 | .mvfr2 => true
  | .fpsid | .fpexc => false

/-- EN does not disable: it is 1, or it has no effect, since it "applies only to AArch32 execution, and only when EL1 is
not AArch64" (R52, R167). -/
def enOpen (s : State) : Bool :=
  s.en || s.ctx.isa.execState == .aarch64 || s.platform.elState.el1 == .aarch64

/-- `A32FpAccessEnabled(reg, ctx)` (R9, D6, D23): the open CPACR, NSACR, HCPTR conditions and, for the registers that
depend on it, EN. -/
def a32FpAccessEnabled (reg : SysReg32) (s : State) : Bool :=
  ((s.platform.a32FpEnabled.get reg).get s.ctx.el).get s.ctx.secure && (!dependsOnEn reg || enOpen s)

/-- `Acc32(reg, ctx)` (R60): the enable applies to the fixed columns as well as to `Config` (C6). -/
def acc32 (reg : SysReg32) (s : State) : Right :=
  match table32 reg s.ctx.el s.ctx.secure with
  | .dash => .none
  | _ => if a32FpAccessEnabled reg s then type32 reg else .none

end Sys2Proof.Machine
end

