-- ==== Sys2Proof/Machine/Ops.lean ====
section
/-! DEFINITION. The operations the instructions share: the program text, the fetch, the program counter, raising the one
exception the spec has, and the four kinds of register access. -/

namespace Sys2Proof.Machine

/-! The program text. -/

/-- The byte the program text holds at an address, if it lists one. -/
def Memory.read : Memory → Nat → Option Byte
  | [], _ => none
  | (k, b) :: rest, a => if k = a then some b else Memory.read rest a

/-- The program text with a byte placed at an address, in rising order. -/
def Memory.write : Memory → Nat → Byte → Memory
  | [], a, v => [(a, v)]
  | (k, b) :: rest, a, v =>
    if a < k then (a, v) :: (k, b) :: rest
    else if a = k then (a, v) :: rest
    else (k, b) :: Memory.write rest a v

/-- Consecutive bytes placed from an address on. -/
def Memory.writeBytes : Memory → Nat → List Byte → Memory
  | m, _, [] => m
  | m, a, b :: bs => Memory.writeBytes (m.write a b) (a + 1) bs

/-- Consecutive bytes from an address on, none of them at or above `limit` (the end of the address space). -/
def Memory.readBytes (m : Memory) (limit : Nat) : Nat → Nat → Option (List Byte)
  | _, 0 => some []
  | a, n + 1 =>
    if a < limit then
      match m.read a, m.readBytes limit (a + 1) n with
      | some b, some bs => some (b :: bs)
      | _, _ => none
    else none

/-- The addresses rise strictly above `lo`. -/
def Memory.sortedAbove : Option Nat → Memory → Bool
  | _, [] => true
  | none, (k, _) :: rest => Memory.sortedAbove (some k) rest
  | some lo, (k, _) :: rest => decide (lo < k) && Memory.sortedAbove (some k) rest

/-- The canonical form: addresses strictly rising, each one an address of 64 bits. (No byte value is what an unlisted
address reads as, since it reads as none.) -/
def Memory.wf (m : Memory) : Bool :=
  Memory.sortedAbove none m && m.all fun cell => decide (cell.1 < 2 ^ 64)

/-! Fetch (R23, R72, R73, R95). -/

/-- The width of the program counter (R14). -/
def pcWidth : Isa → Nat
  | .a64 => 64
  | .a32 => 32
  | .t32 => 32

/-- The address the next instruction is fetched at: in AArch32 the low 32 bits of `pc` (R14). -/
def State.fetchAddr (s : State) : Nat := s.pc.toNat % 2 ^ pcWidth s.ctx.isa

/-- A64 and A32 words lie at multiples of 4, T32 halfwords at multiples of 2 (R73). -/
def fetchAlignment : Isa → Nat
  | .a64 => 4
  | .a32 => 4
  | .t32 => 2

/-- The four bytes at the program counter: refused where it is misaligned (R73), stuck where they are not all in the
loaded program (R23). -/
def fetch (s : State) : Host.Outcome (List Byte) Fault Refusal :=
  if s.fetchAddr % fetchAlignment s.ctx.isa ≠ 0 then .refused .pcMisaligned
  else
    match s.mem.readBytes (2 ^ pcWidth s.ctx.isa) s.fetchAddr 4 with
    | some bytes => .next bytes
    | none => .fault (.fetchOutsideProgram s.pc)

/-- The decoder's refusal as the machine's (R187). -/
def refusalOfDecode : DecodeRefusal → Refusal
  | .tooShort => .notInSource 0#32
  | .notInSource w => .notInSource w
  | .rtNotPermitted w => .rtNotPermitted w

/-! The program counter (R23, R172). -/

/-- `pc + 4` in a program counter of 64 (A64) or 32 bits. Past the top of the address space the spec gives no value
(R23): a free value of the program counter's width (log 4). -/
def nextPc (isa : Isa) (pc : BitVec 64) : BitVec 64 :=
  match isa with
  | .a64 => if pc.toNat + 4 < 2 ^ 64 then pc + 4#64 else Config.pcPastTop pc
  | .a32 | .t32 =>
    if pc.toNat % 2 ^ 32 + 4 < 2 ^ 32 then (pc.setWidth 32 + 4#32).setWidth 64
    else ((Config.pcPastTop pc).setWidth 32).setWidth 64

/-- The state with the program counter past the instruction. -/
def State.advance (s : State) : State := { s with pc := nextPc s.ctx.isa s.pc }

/-- The state in another context: an event outside the model (R21). It changes nothing of the extension (R197), and the
model keeps every other field as well: the two general-purpose files (log 14), APSR and PSTATE (log 19). -/
def State.withCtx (s : State) (ctx : Ctx) : State := { s with ctx := ctx }

/-! Taking the exception. -/

/-- `raise UndefinedInstruction(reg, ctx)` (R186): nothing is written, `pc` is unchanged, and the run ends with a fault that
records the register, whether it was read or written, and the context. The spec describes no vector, saved state, mode change or
return (R188, R189). -/
def raiseUndefined (reg : SysReg) (access : Access) (s : State) : Host.Outcome State Fault Refusal :=
  .fault (.undefinedInstruction reg access s.ctx)

/-! Register accesses. -/

/-- `MRS <Xt>, <sysreg>` (R110). -/
def readSys64 (reg : SysReg64) (rt : BitVec 5) (s : State) : Host.Outcome State Fault Refusal :=
  if s.ctx.isa ≠ .a64 then .refused .wrongInstructionSet
  else
    match acc64 reg s with
    | .none => raiseUndefined (.a64 reg) .read s
    | .ro | .rw => .next (s.writeX rt (view64 s reg)).advance

/-- `MSR <sysreg>, <Xt>` (R111): the register takes Xt[31:0], unless `P_RES_WRITE` refuses the value (D3, D11). -/
def writeSys64 (reg : SysReg64) (rt : BitVec 5) (s : State) : Host.Outcome State Fault Refusal :=
  if s.ctx.isa ≠ .a64 then .refused .wrongInstructionSet
  else
    match acc64 reg s with
    | .none => raiseUndefined (.a64 reg) .write s
    | .ro => .refused (.readOnlyRegister (.a64 reg))
    | .rw =>
      if s.refusesWrite (badWrite64 reg (s.readX rt)) then .refused (.reservedFieldWritten (.a64 reg))
      else .next (writeFields64 ((s.readX rt).setWidth 32) s reg).advance

/-- The frame of every AArch32 access, in the order of R187: decode-time operand checks, the condition (a failed one makes
the instruction a no-op), the access right, and then the access itself. -/
def access32 (form : Form32) (operandsAdmitted : Bool) (reg : SysReg32) (access : Access) (s : State)
    (perform : Host.Outcome State Fault Refusal) : Host.Outcome State Fault Refusal :=
  if s.ctx.isa ≠ form.isa then .refused .wrongInstructionSet
  else if !(form.condAdmitted && operandsAdmitted) then .refused .operandNotPermitted
  else if !form.passes s then .next s.advance
  else
    match acc32 reg s, access with
    | .none, _ => raiseUndefined (.a32 reg) access s
    | .ro, .write => .refused (.readOnlyRegister (.a32 reg))
    | _, _ => perform

/-- `VMRS <Rt>, <spec_reg>` (R130, R143). -/
def readSys32 (form : Form32) (reg : SysReg32) (rt : BitVec 4) (s : State) : Host.Outcome State Fault Refusal :=
  access32 form (form.rtAdmitted rt) reg .read s (.next (s.writeR rt (view32 s reg)).advance)

/-- `VMSR <spec_reg>, <Rt>` (R131, R143), unless `P_RES_WRITE` refuses the value (D3). -/
def writeSys32 (form : Form32) (reg : SysReg32) (rt : BitVec 4) (s : State) : Host.Outcome State Fault Refusal :=
  access32 form (form.rtAdmitted rt) reg .write s
    (if s.refusesWrite (reservedBroken (.a32 reg) (s.readR rt)) then .refused (.reservedFieldWritten (.a32 reg))
     else .next (writeFields32 (s.readR rt) s reg).advance)

/-- `VMRS APSR_nzcv, FPSCR` (R140, R143): APSR takes the four flags; no register is written. -/
def transferFlags (form : Form32) (s : State) : Host.Outcome State Fault Refusal :=
  access32 form true .fpscr .read s (.next ({ s with apsr := s.f.flags } : State).advance)

/-- A write that names a read-only register (R122, R142): refused at every Exception level, and no register changes. -/
def refuseReadOnly (reg : SysReg) : Host.Outcome State Fault Refusal := .refused (.readOnlyRegister reg)

/-- An access to FPINST or FPINST2 (R141): refused at every Exception level, before any access check. -/
def refuseFpinst : Host.Outcome State Fault Refusal := .refused .fpinstUnpredictable

/-! Placing an instruction for the fetch. -/

/-- The state in which the next fetch reads the number `word` of the opcode table: its bytes at the program counter, the
program counter aligned down to a word, and the context in the word's instruction set, the current level using that execution
state (D9). Log 5. -/
def State.placeWord (s : State) (word : Word) : State :=
  let isa := tableIsa word
  let pc := BitVec.ofNat 64 (s.pc.toNat % 2 ^ pcWidth isa / 4 * 4)
  { s with
    ctx := { s.ctx with isa := isa }
    platform := { s.platform with elState := s.platform.elState.set isa.execState s.ctx.el }
    pc := pc
    mem := s.mem.writeBytes pc.toNat (bytesOfWord isa word) }

end Sys2Proof.Machine
end

