-- ==== Sys2Proof/Machine/A32.lean ====
section
/-! DEFINITION. The A32 family: `VMRS` and `VMSR` of each register (R130 to R143). -/

namespace Sys2Proof.Machine

/-- A32 `VMRS <Rt>, FPSID` (R132). -/
def execVmrsFpsidA32 (cond : BitVec 4) (rt : BitVec 4) (s : State) : Host.Outcome State Fault Refusal :=
  readSys32 (.a32 cond) .fpsid rt s

/-- A32 `VMSR FPSID, <Rt>` (R142): refused, the register is read-only. -/
def execVmsrFpsidA32 (_ : BitVec 4) (_ : BitVec 4) (_ : State) : Host.Outcome State Fault Refusal :=
  refuseReadOnly (.a32 .fpsid)

/-- A32 `VMRS APSR_nzcv, FPSCR` (R140). -/
def execVmrsApsrFpscrA32 (cond : BitVec 4) (s : State) : Host.Outcome State Fault Refusal :=
  transferFlags (.a32 cond) s

/-- A32 `VMRS <Rt>, FPSCR` (R133). -/
def execVmrsFpscrA32 (cond : BitVec 4) (rt : BitVec 4) (s : State) : Host.Outcome State Fault Refusal :=
  readSys32 (.a32 cond) .fpscr rt s

/-- A32 `VMSR FPSCR, <Rt>` (R134). -/
def execVmsrFpscrA32 (cond : BitVec 4) (rt : BitVec 4) (s : State) : Host.Outcome State Fault Refusal :=
  writeSys32 (.a32 cond) .fpscr rt s

/-- A32 `VMRS <Rt>, MVFR0` (R135). -/
def execVmrsMvfr0A32 (cond : BitVec 4) (rt : BitVec 4) (s : State) : Host.Outcome State Fault Refusal :=
  readSys32 (.a32 cond) .mvfr0 rt s

/-- A32 `VMSR MVFR0, <Rt>` (R142): refused, the register is read-only. -/
def execVmsrMvfr0A32 (_ : BitVec 4) (_ : BitVec 4) (_ : State) : Host.Outcome State Fault Refusal :=
  refuseReadOnly (.a32 .mvfr0)

/-- A32 `VMRS <Rt>, MVFR1` (R136). -/
def execVmrsMvfr1A32 (cond : BitVec 4) (rt : BitVec 4) (s : State) : Host.Outcome State Fault Refusal :=
  readSys32 (.a32 cond) .mvfr1 rt s

/-- A32 `VMSR MVFR1, <Rt>` (R142): refused, the register is read-only. -/
def execVmsrMvfr1A32 (_ : BitVec 4) (_ : BitVec 4) (_ : State) : Host.Outcome State Fault Refusal :=
  refuseReadOnly (.a32 .mvfr1)

/-- A32 `VMRS <Rt>, MVFR2` (R137). -/
def execVmrsMvfr2A32 (cond : BitVec 4) (rt : BitVec 4) (s : State) : Host.Outcome State Fault Refusal :=
  readSys32 (.a32 cond) .mvfr2 rt s

/-- A32 `VMSR MVFR2, <Rt>` (R142): refused, the register is read-only. -/
def execVmsrMvfr2A32 (_ : BitVec 4) (_ : BitVec 4) (_ : State) : Host.Outcome State Fault Refusal :=
  refuseReadOnly (.a32 .mvfr2)

/-- A32 `VMRS <Rt>, FPEXC` (R138). -/
def execVmrsFpexcA32 (cond : BitVec 4) (rt : BitVec 4) (s : State) : Host.Outcome State Fault Refusal :=
  readSys32 (.a32 cond) .fpexc rt s

/-- A32 `VMSR FPEXC, <Rt>` (R139). -/
def execVmsrFpexcA32 (cond : BitVec 4) (rt : BitVec 4) (s : State) : Host.Outcome State Fault Refusal :=
  writeSys32 (.a32 cond) .fpexc rt s

/-- A32 `VMRS <Rt>, FPINST` (R141): refused, UNPREDICTABLE. -/
def execVmrsFpinstA32 (_ : BitVec 4) (_ : BitVec 4) (_ : State) : Host.Outcome State Fault Refusal :=
  refuseFpinst

/-- A32 `VMSR FPINST, <Rt>` (R141): refused, UNPREDICTABLE. -/
def execVmsrFpinstA32 (_ : BitVec 4) (_ : BitVec 4) (_ : State) : Host.Outcome State Fault Refusal :=
  refuseFpinst

/-- A32 `VMRS <Rt>, FPINST2` (R141): refused, UNPREDICTABLE. -/
def execVmrsFpinst2A32 (_ : BitVec 4) (_ : BitVec 4) (_ : State) : Host.Outcome State Fault Refusal :=
  refuseFpinst

/-- A32 `VMSR FPINST2, <Rt>` (R141): refused, UNPREDICTABLE. -/
def execVmsrFpinst2A32 (_ : BitVec 4) (_ : BitVec 4) (_ : State) : Host.Outcome State Fault Refusal :=
  refuseFpinst

end Sys2Proof.Machine
end

