-- ==== Sys2Proof/Machine/A64.lean ====
section
/-! DEFINITION. The A64 family: `MRS` and `MSR` of each register (R110 to R122). -/

namespace Sys2Proof.Machine

/-- `MRS <Xt>, FPCR` (R112). -/
def execMrsFpcr (rt : BitVec 5) (s : State) : Host.Outcome State Fault Refusal :=
  readSys64 .fpcr rt s

/-- `MSR FPCR, <Xt>` (R113). -/
def execMsrFpcr (rt : BitVec 5) (s : State) : Host.Outcome State Fault Refusal :=
  writeSys64 .fpcr rt s

/-- `MRS <Xt>, FPSR` (R114). -/
def execMrsFpsr (rt : BitVec 5) (s : State) : Host.Outcome State Fault Refusal :=
  readSys64 .fpsr rt s

/-- `MSR FPSR, <Xt>` (R115). -/
def execMsrFpsr (rt : BitVec 5) (s : State) : Host.Outcome State Fault Refusal :=
  writeSys64 .fpsr rt s

/-- `MRS <Xt>, MVFR0_EL1` (R116). -/
def execMrsMvfr0El1 (rt : BitVec 5) (s : State) : Host.Outcome State Fault Refusal :=
  readSys64 .mvfr0El1 rt s

/-- `MSR MVFR0_EL1, <Xt>` (R122): refused, the register is read-only. -/
def execMsrMvfr0El1 (_ : BitVec 5) (_ : State) : Host.Outcome State Fault Refusal :=
  refuseReadOnly (.a64 .mvfr0El1)

/-- `MRS <Xt>, MVFR1_EL1` (R117). -/
def execMrsMvfr1El1 (rt : BitVec 5) (s : State) : Host.Outcome State Fault Refusal :=
  readSys64 .mvfr1El1 rt s

/-- `MSR MVFR1_EL1, <Xt>` (R122): refused, the register is read-only. -/
def execMsrMvfr1El1 (_ : BitVec 5) (_ : State) : Host.Outcome State Fault Refusal :=
  refuseReadOnly (.a64 .mvfr1El1)

/-- `MRS <Xt>, MVFR2_EL1` (R118). -/
def execMrsMvfr2El1 (rt : BitVec 5) (s : State) : Host.Outcome State Fault Refusal :=
  readSys64 .mvfr2El1 rt s

/-- `MSR MVFR2_EL1, <Xt>` (R122): refused, the register is read-only. -/
def execMsrMvfr2El1 (_ : BitVec 5) (_ : State) : Host.Outcome State Fault Refusal :=
  refuseReadOnly (.a64 .mvfr2El1)

/-- `MRS <Xt>, FPEXC32_EL2` (R119). -/
def execMrsFpexc32El2 (rt : BitVec 5) (s : State) : Host.Outcome State Fault Refusal :=
  readSys64 .fpexc32El2 rt s

/-- `MSR FPEXC32_EL2, <Xt>` (R120). -/
def execMsrFpexc32El2 (rt : BitVec 5) (s : State) : Host.Outcome State Fault Refusal :=
  writeSys64 .fpexc32El2 rt s

/-- `MRS <Xt>, ID_AA64PFR0_EL1` (R121). -/
def execMrsIdAa64pfr0El1 (rt : BitVec 5) (s : State) : Host.Outcome State Fault Refusal :=
  readSys64 .idAa64pfr0El1 rt s

end Sys2Proof.Machine
end

