-- ==== Sys2Proof/Machine/T32.lean ====
section
/-! DEFINITION. The T32 family: `VMRS` and `VMSR` of each register (R130 to R143). -/

namespace Sys2Proof.Machine

/-- T32 `VMRS <Rt>, FPSID` (R132, R143). -/
def execVmrsFpsidT32 (rt : BitVec 4) (s : State) : Host.Outcome State Fault Refusal :=
  readSys32 .t32 .fpsid rt s

/-- T32 `VMSR FPSID, <Rt>` (R142, R143): refused, the register is read-only. -/
def execVmsrFpsidT32 (_ : BitVec 4) (_ : State) : Host.Outcome State Fault Refusal :=
  refuseReadOnly (.a32 .fpsid)

/-- T32 `VMRS APSR_nzcv, FPSCR` (R140, R143). -/
def execVmrsApsrFpscrT32 (s : State) : Host.Outcome State Fault Refusal :=
  transferFlags .t32 s

/-- T32 `VMRS <Rt>, FPSCR` (R133, R143). -/
def execVmrsFpscrT32 (rt : BitVec 4) (s : State) : Host.Outcome State Fault Refusal :=
  readSys32 .t32 .fpscr rt s

/-- T32 `VMSR FPSCR, <Rt>` (R134, R143). -/
def execVmsrFpscrT32 (rt : BitVec 4) (s : State) : Host.Outcome State Fault Refusal :=
  writeSys32 .t32 .fpscr rt s

/-- T32 `VMRS <Rt>, MVFR0` (R135, R143). -/
def execVmrsMvfr0T32 (rt : BitVec 4) (s : State) : Host.Outcome State Fault Refusal :=
  readSys32 .t32 .mvfr0 rt s

/-- T32 `VMSR MVFR0, <Rt>` (R142, R143): refused, the register is read-only. -/
def execVmsrMvfr0T32 (_ : BitVec 4) (_ : State) : Host.Outcome State Fault Refusal :=
  refuseReadOnly (.a32 .mvfr0)

/-- T32 `VMRS <Rt>, MVFR1` (R136, R143). -/
def execVmrsMvfr1T32 (rt : BitVec 4) (s : State) : Host.Outcome State Fault Refusal :=
  readSys32 .t32 .mvfr1 rt s

/-- T32 `VMSR MVFR1, <Rt>` (R142, R143): refused, the register is read-only. -/
def execVmsrMvfr1T32 (_ : BitVec 4) (_ : State) : Host.Outcome State Fault Refusal :=
  refuseReadOnly (.a32 .mvfr1)

/-- T32 `VMRS <Rt>, MVFR2` (R137, R143). -/
def execVmrsMvfr2T32 (rt : BitVec 4) (s : State) : Host.Outcome State Fault Refusal :=
  readSys32 .t32 .mvfr2 rt s

/-- T32 `VMSR MVFR2, <Rt>` (R142, R143): refused, the register is read-only. -/
def execVmsrMvfr2T32 (_ : BitVec 4) (_ : State) : Host.Outcome State Fault Refusal :=
  refuseReadOnly (.a32 .mvfr2)

/-- T32 `VMRS <Rt>, FPEXC` (R138, R143). -/
def execVmrsFpexcT32 (rt : BitVec 4) (s : State) : Host.Outcome State Fault Refusal :=
  readSys32 .t32 .fpexc rt s

/-- T32 `VMSR FPEXC, <Rt>` (R139, R143). -/
def execVmsrFpexcT32 (rt : BitVec 4) (s : State) : Host.Outcome State Fault Refusal :=
  writeSys32 .t32 .fpexc rt s

/-- T32 `VMRS <Rt>, FPINST` (R141, R143): refused, UNPREDICTABLE. -/
def execVmrsFpinstT32 (_ : BitVec 4) (_ : State) : Host.Outcome State Fault Refusal :=
  refuseFpinst

/-- T32 `VMSR FPINST, <Rt>` (R141, R143): refused, UNPREDICTABLE. -/
def execVmsrFpinstT32 (_ : BitVec 4) (_ : State) : Host.Outcome State Fault Refusal :=
  refuseFpinst

/-- T32 `VMRS <Rt>, FPINST2` (R141, R143): refused, UNPREDICTABLE. -/
def execVmrsFpinst2T32 (_ : BitVec 4) (_ : State) : Host.Outcome State Fault Refusal :=
  refuseFpinst

/-- T32 `VMSR FPINST2, <Rt>` (R141, R143): refused, UNPREDICTABLE. -/
def execVmsrFpinst2T32 (_ : BitVec 4) (_ : State) : Host.Outcome State Fault Refusal :=
  refuseFpinst

end Sys2Proof.Machine
end

