-- ==== Sys2Proof/Machine/Dispatch.lean ====
section
/-! DEFINITION. One arm for each constructor of Instr: a direct call of the instruction's meaning. -/

namespace Sys2Proof.Machine

def exec (i : Instr) (s : State) : Host.Outcome State Fault Refusal :=
  match i with
  | .mrsFpcr rt => Sys2Proof.Machine.execMrsFpcr rt s
  | .msrFpcr rt => Sys2Proof.Machine.execMsrFpcr rt s
  | .mrsFpsr rt => Sys2Proof.Machine.execMrsFpsr rt s
  | .msrFpsr rt => Sys2Proof.Machine.execMsrFpsr rt s
  | .mrsMvfr0El1 rt => Sys2Proof.Machine.execMrsMvfr0El1 rt s
  | .msrMvfr0El1 rt => Sys2Proof.Machine.execMsrMvfr0El1 rt s
  | .mrsMvfr1El1 rt => Sys2Proof.Machine.execMrsMvfr1El1 rt s
  | .msrMvfr1El1 rt => Sys2Proof.Machine.execMsrMvfr1El1 rt s
  | .mrsMvfr2El1 rt => Sys2Proof.Machine.execMrsMvfr2El1 rt s
  | .msrMvfr2El1 rt => Sys2Proof.Machine.execMsrMvfr2El1 rt s
  | .mrsFpexc32El2 rt => Sys2Proof.Machine.execMrsFpexc32El2 rt s
  | .msrFpexc32El2 rt => Sys2Proof.Machine.execMsrFpexc32El2 rt s
  | .mrsIdAa64pfr0El1 rt => Sys2Proof.Machine.execMrsIdAa64pfr0El1 rt s
  | .vmrsFpsidA32 cond rt => Sys2Proof.Machine.execVmrsFpsidA32 cond rt s
  | .vmsrFpsidA32 cond rt => Sys2Proof.Machine.execVmsrFpsidA32 cond rt s
  | .vmrsApsrFpscrA32 cond => Sys2Proof.Machine.execVmrsApsrFpscrA32 cond s
  | .vmrsFpscrA32 cond rt => Sys2Proof.Machine.execVmrsFpscrA32 cond rt s
  | .vmsrFpscrA32 cond rt => Sys2Proof.Machine.execVmsrFpscrA32 cond rt s
  | .vmrsMvfr0A32 cond rt => Sys2Proof.Machine.execVmrsMvfr0A32 cond rt s
  | .vmsrMvfr0A32 cond rt => Sys2Proof.Machine.execVmsrMvfr0A32 cond rt s
  | .vmrsMvfr1A32 cond rt => Sys2Proof.Machine.execVmrsMvfr1A32 cond rt s
  | .vmsrMvfr1A32 cond rt => Sys2Proof.Machine.execVmsrMvfr1A32 cond rt s
  | .vmrsMvfr2A32 cond rt => Sys2Proof.Machine.execVmrsMvfr2A32 cond rt s
  | .vmsrMvfr2A32 cond rt => Sys2Proof.Machine.execVmsrMvfr2A32 cond rt s
  | .vmrsFpexcA32 cond rt => Sys2Proof.Machine.execVmrsFpexcA32 cond rt s
  | .vmsrFpexcA32 cond rt => Sys2Proof.Machine.execVmsrFpexcA32 cond rt s
  | .vmrsFpinstA32 cond rt => Sys2Proof.Machine.execVmrsFpinstA32 cond rt s
  | .vmsrFpinstA32 cond rt => Sys2Proof.Machine.execVmsrFpinstA32 cond rt s
  | .vmrsFpinst2A32 cond rt => Sys2Proof.Machine.execVmrsFpinst2A32 cond rt s
  | .vmsrFpinst2A32 cond rt => Sys2Proof.Machine.execVmsrFpinst2A32 cond rt s
  | .vmrsFpsidT32 rt => Sys2Proof.Machine.execVmrsFpsidT32 rt s
  | .vmsrFpsidT32 rt => Sys2Proof.Machine.execVmsrFpsidT32 rt s
  | .vmrsApsrFpscrT32 => Sys2Proof.Machine.execVmrsApsrFpscrT32 s
  | .vmrsFpscrT32 rt => Sys2Proof.Machine.execVmrsFpscrT32 rt s
  | .vmsrFpscrT32 rt => Sys2Proof.Machine.execVmsrFpscrT32 rt s
  | .vmrsMvfr0T32 rt => Sys2Proof.Machine.execVmrsMvfr0T32 rt s
  | .vmsrMvfr0T32 rt => Sys2Proof.Machine.execVmsrMvfr0T32 rt s
  | .vmrsMvfr1T32 rt => Sys2Proof.Machine.execVmrsMvfr1T32 rt s
  | .vmsrMvfr1T32 rt => Sys2Proof.Machine.execVmsrMvfr1T32 rt s
  | .vmrsMvfr2T32 rt => Sys2Proof.Machine.execVmrsMvfr2T32 rt s
  | .vmsrMvfr2T32 rt => Sys2Proof.Machine.execVmsrMvfr2T32 rt s
  | .vmrsFpexcT32 rt => Sys2Proof.Machine.execVmrsFpexcT32 rt s
  | .vmsrFpexcT32 rt => Sys2Proof.Machine.execVmsrFpexcT32 rt s
  | .vmrsFpinstT32 rt => Sys2Proof.Machine.execVmrsFpinstT32 rt s
  | .vmsrFpinstT32 rt => Sys2Proof.Machine.execVmsrFpinstT32 rt s
  | .vmrsFpinst2T32 rt => Sys2Proof.Machine.execVmrsFpinst2T32 rt s
  | .vmsrFpinst2T32 rt => Sys2Proof.Machine.execVmsrFpinst2T32 rt s

end Sys2Proof.Machine
end

