-- ==== Sys2Proof/Machine/Step.lean ====
section
/-! DEFINITION. One step of the core: fetch, decode, execute (R23, R101, R220); and the state that holds a given instruction
where the step fetches. -/

namespace Sys2Proof.Machine

/-- One step: the instruction at the program counter, to completion (R74, R220). -/
def step (s : State) : Host.Outcome State Fault Refusal :=
  match fetch s with
  | .next bytes =>
    match decodeBytes s.ctx.isa bytes with
    | .ok i => exec i s
    | .error e => .refused (refusalOfDecode e)
  | .fault r => .fault r
  | .refused r => .refused r

/-- The state with the opcode table's number `w` where the step fetches its next instruction, and the context that fetches
it (log 5). -/
def State.withFetchWord (s : State) (nbits w : Nat) : State := s.placeWord (tableWord nbits w)

end Sys2Proof.Machine
end

