-- ==== Sys2Proof/Machine/FpClass.lean ====
section
/-! DEFINITION. What the control and status fields do to a floating-point or Advanced SIMD operation (R150 to R167). The
opcode table has no such instruction, so no constructor of Instr comes here: it is the contract the spec gives the class as a
whole, over the open numerics (D19). -/

namespace Sys2Proof.Machine

/-- FPSCR.Len or FPSCR.Stride is not zero (R166). Both are RES0, so it never holds. -/
def shortVectorSelected (s : State) : Bool :=
  (fpscrView s.f).extractLsb' 16 3 != 0#3 || (fpscrView s.f).extractLsb' 20 2 != 0#2

/-- The enables of a data-processing operation: "the same enables" as the registers' (R196), hence A64FpAccessEnabled in
AArch64, and in AArch32 those of FPSCR, EN among them (R167). DEDUCED (log 11). -/
def dataProcessingEnabled (s : State) : Bool :=
  match s.ctx.isa.execState with
  | .aarch64 => a64FpAccessEnabled s
  | .aarch32 => a32FpAccessEnabled .fpscr s

/-! The formats (R168). -/

/-- The width of the exponent field. -/
def FpFormat.exponentBits : FpFormat → Nat
  | .half | .altHalf => 5
  | .arith .single => 8
  | .arith .double => 11

/-- The width of the fraction field, which ends at bit 0. -/
def FpFormat.fractionBits : FpFormat → Nat
  | .half | .altHalf => 10
  | .arith .single => 23
  | .arith .double => 52

/-- The exponent's bias. -/
def FpFormat.bias : FpFormat → Nat
  | .half | .altHalf => 15
  | .arith .single => 127
  | .arith .double => 1023

/-- The sign, the bit above the exponent field: [15], [31] or [63]. -/
def FpFormat.sign (format : FpFormat) (x : DWord) : Bool := x.getLsbD (format.fractionBits + format.exponentBits)

/-- The exponent field: [14:10], [30:23] or [62:52]. -/
def FpFormat.exponent (format : FpFormat) (x : DWord) : Nat :=
  (x.extractLsb' format.fractionBits format.exponentBits).toNat

/-- The fraction field: [9:0], [22:0] or [51:0]. -/
def FpFormat.fraction (format : FpFormat) (x : DWord) : Nat := (x.extractLsb' 0 format.fractionBits).toNat

/-- The largest exponent encodes infinities and NaNs, but in the alternative half-precision format, which has neither. -/
def FpFormat.hasSpecials : FpFormat → Bool
  | .altHalf => false
  | .half | .arith _ => true

/-- What a bit pattern encodes. -/
inductive FpValue where
  /-- `significand * 2 ^ power`, negative where `sign` is. -/
  | finite (sign : Bool) (significand : Nat) (power : Int)
  | infinity (sign : Bool)
  | nan
deriving DecidableEq, Repr

/-- The value of a bit pattern: a normal number has an implicit leading one; exponent 0 encodes zero and the denormals. -/
def FpFormat.value (format : FpFormat) (x : DWord) : FpValue :=
  let e := format.exponent x
  if format.hasSpecials && e == 2 ^ format.exponentBits - 1 then
    if format.fraction x = 0 then .infinity (format.sign x) else .nan
  else if e = 0 then .finite (format.sign x) (format.fraction x) (1 - (format.bias + format.fractionBits : Nat))
  else
    .finite (format.sign x) (2 ^ format.fractionBits + format.fraction x)
      ((e : Int) - (format.bias + format.fractionBits : Nat))

/-- The bit pattern encodes a NaN. -/
def FpFormat.isNaN (format : FpFormat) (x : DWord) : Bool := format.value x == .nan

/-- The NaN with a sign and a fraction: the exponent is all ones (R168). -/
def FpFormat.nanOf (format : FpFormat) (sign : Bool) (fraction : Nat) : DWord :=
  BitVec.ofNat 64 (2 ^ format.fractionBits * (2 ^ format.exponentBits * sign.toNat + (2 ^ format.exponentBits - 1)) + fraction)

/-- The fraction of a free NaN in each format, never 0. -/
def FreeNaN.fraction (nan : FreeNaN) : FpFormat → Nat
  | .half | .altHalf => nan.half.val + 1
  | .arith .single => nan.single.val + 1
  | .arith .double => nan.double.val + 1

/-- The bits of a free NaN in a format that has NaNs. -/
def FreeNaN.bits (nan : FreeNaN) (format : FpFormat) : DWord := format.nanOf nan.sign (nan.fraction format)

/-- A fraction in another format's fraction field, the most significant bits over each other. A shorter field drops the
rest; a longer one is filled with `low`. DEDUCED (log 23). -/
def FpFormat.carryFraction (src dst : FpFormat) (fraction low : Nat) : Nat :=
  if dst.fractionBits ≤ src.fractionBits then fraction / 2 ^ (src.fractionBits - dst.fractionBits)
  else
    2 ^ (dst.fractionBits - src.fractionBits) * fraction + low % 2 ^ (dst.fractionBits - src.fractionBits)

/-- A NaN operand at the output (R154): its sign and its fraction, the fraction's most significant bit set where it is
quieted, as it must be where the fraction would be 0. In the operand's own format nothing but the quieting is open (log 23). -/
def NaNPropagation.bits (propagation : NaNPropagation) (src dst : FpFormat) (x : DWord) : DWord :=
  let fraction := src.carryFraction dst (src.fraction x) propagation.low
  dst.nanOf (src.sign x)
    (if propagation.quieted || fraction == 0 then fraction ||| 2 ^ (dst.fractionBits - 1) else fraction)

/-! What reaches an operation. -/

/-- A conversion to or from half precision (R153). -/
def FpKind.convertsHalf : FpKind → Bool
  | .fromHalf _ | .toHalf _ => true
  | .floatingPoint _ _ | .integer => false

/-- The half-precision format AHP selects (R153). -/
def halfFormat (ahp : Bool) : FpFormat := if ahp then .altHalf else .half

/-- The format of the operands, if they are floating-point numbers. -/
def FpKind.source (ahp : Bool) : FpKind → Option FpFormat
  | .fromHalf _ => some (halfFormat ahp)
  | .toHalf source => some (.arith source)
  | .floatingPoint source _ => source.map .arith
  | .integer => none

/-- The format of the result, if it is a floating-point number. -/
def FpKind.result (ahp : Bool) : FpKind → Option FpFormat
  | .fromHalf result => some (.arith result)
  | .toHalf _ => some (halfFormat ahp)
  | .floatingPoint _ result => result.map .arith
  | .integer => none

/-- The control fields an operation is run with: those in force for its class (R158 to R161), AHP only for half-precision
conversions ("it affects nothing else", R153), RMode only for operations without a rounding of their own (R156). A field that
does not reach the operation is handed over as 0. -/
def fpControl (op : FpOperation) (s : State) : FpControl :=
  let control := effectiveControl s.ctx.isa.execState op.cls s.f.control
  { control with
    ahp := control.ahp && op.kind.convertsHalf
    rmode := if op.ownRounding then .rn else control.rmode }

/-- What the numerics answer for an operation, with the control fields it is run with (R150). -/
def fpAnswer (op : FpOperation) (s : State) : FpAnswer :=
  Config.fpNumerics op (fpControl op s) s.ctx.isa.execState

/-- Those of these operands that are NaNs (R154). -/
def FpOperation.nansAmong (op : FpOperation) (control : FpControl) (operands : List DWord) : List DWord :=
  match op.kind.source control.ahp with
  | some format => operands.filter format.isNaN
  | none => []

/-- One or more operands of the operation are NaNs. -/
def FpOperation.hasNaN (op : FpOperation) (control : FpControl) : Bool :=
  op.elements.any fun operands => !(op.nansAmong control operands).isEmpty

/-- What a result element is where a NaN operand reaches it (R154): the Default NaN with DN = 1; with DN = 0 that operand, or
one of those operands, propagated. None where no operand is a NaN. -/
def FpOperation.nanElement (op : FpOperation) (control : FpControl) (propagation : NaNPropagation)
    (operands : List DWord) (dst : FpFormat) : Option DWord :=
  let nans := op.nansAmong control operands
  match op.kind.source control.ahp, nans[propagation.operand % nans.length]? with
  | some src, some x => some (if control.dn then Config.defaultNaN.bits dst else propagation.bits src dst x)
  | _, _ => none

/-- An element of the result: from a NaN operand what R154 says. Otherwise it is the numerics' answer; and so where the result
is no floating-point number, or is in the alternative half-precision format, which has no NaN to return: the spec states no
result there, DESIGN CHOICE (log 21). -/
def fpElement (op : FpOperation) (s : State) (k : Nat) (operands : List DWord) : DWord :=
  let control := fpControl op s
  let answer := fpAnswer op s
  match op.kind.result control.ahp with
  | some dst =>
    if dst.hasSpecials then (op.nanElement control (answer.propagation k) operands dst).getD (answer.element k)
    else answer.element k
  | none => answer.element k

/-- The result, element by element. -/
def fpResult (op : FpOperation) (s : State) : List DWord := op.elements.mapIdx (fpElement op s)

/-- The exceptions an operation raises: none for an integer operation (R164). -/
def fpRaised (op : FpOperation) (s : State) : FpExceptions :=
  if op.kind = .integer then ⟨false, false, false, false, false, false⟩ else (fpAnswer op s).raised

/-- An Advanced SIMD integer operation saturated (R163). -/
def fpSaturated (op : FpOperation) (s : State) : Bool :=
  op.cls == .advSimd && op.kind == .integer && (fpAnswer op s).saturated

/-- The comparison result of an operation that compares: unordered where an operand is a NaN, and only there (R162); which of
the three others it is otherwise is the numerics' answer. -/
def fpComparison (op : FpOperation) (s : State) : Option Comparison :=
  if op.compares then some (if op.hasNaN (fpControl op s) then .unordered else (fpAnswer op s).comparison.result) else none

/-- The status an operation leaves: cumulative bits (R164), QC (R163), comparison flags (R162). Nothing else changes: no trap
(R165), no control field (R157). -/
def State.recordStatus (s : State) (op : FpOperation) : State :=
  let t := { s with f := (s.f.raiseExceptions (fpRaised op s)).recordSaturation (fpSaturated op s) }
  match fpComparison op s with
  | none => t
  | some comparison => t.writeComparison comparison

/-- One operation of the class: it faults where it is not enabled (R167) or selected as a short vector (R166), and
otherwise completes with a result and its status (R152, R165). Its destination is not in the spec: the result is returned. -/
def fpOperation (op : FpOperation) (s : State) : Host.Outcome (List DWord × State) Fault Refusal :=
  if !dataProcessingEnabled s then .fault (.undefinedDataProcessing s.ctx)
  else if shortVectorSelected s then .fault (.undefinedDataProcessing s.ctx)
  else .next (fpResult op s, s.recordStatus op)

end Sys2Proof.Machine
end

