-- ==== Sys2Proof/Safety.lean ====
section
/-! DEFINITION. The terms statements use: the frames of the instructions, the invariant of a run, and the parts of the state
that a level may not change. -/

namespace Sys2Proof.Machine

/-- `t` is `s` with another program counter, the one past the instruction. -/
def OnlyPcAdvanced (s t : State) : Prop := t = { s with pc := nextPc s.ctx.isa s.pc }

/-- `t` is `s` with `v` in Xt (in no register for t = 31) and the program counter past the instruction. Every other X
register, and every other part of the state, is that of `s`. -/
def OnlyXWritten (s t : State) (rt : BitVec 5) (v : DWord) : Prop :=
  (∀ k : Nat, k < 31 → t.x[k]? = if k = rt.toNat then some v else s.x[k]?) ∧
    t = { s with x := t.x, pc := nextPc s.ctx.isa s.pc }

/-- `t` is `s` with `v` in Rt and the program counter past the instruction; every other R register, and every other
part of the state, is that of `s`. -/
def OnlyRWritten (s t : State) (rt : BitVec 4) (v : Word) : Prop :=
  (∀ k : Nat, k < 15 → t.r[k]? = if k = rt.toNat then some v else s.r[k]?) ∧
    t = { s with r := t.r, pc := nextPc s.ctx.isa s.pc }

/-- The instruction reads `v` into Xt where the access is allowed, and raises the access fault where it is not (R110,
R186). -/
def ReadsIntoX (i : Instr) (reg : SysReg64) (allowed : Prop) (rt : BitVec 5) (v : DWord) (s : State) : Prop :=
  (allowed → ∃ t, exec i s = .next t ∧ OnlyXWritten s t rt v) ∧
    (¬ allowed → exec i s = .fault (.undefinedInstruction (.a64 reg) .read s.ctx))

/-- The instruction reads `v` into Rt where the access is allowed, and raises the access fault where it is not (R130,
R186). -/
def ReadsIntoR (i : Instr) (reg : SysReg32) (allowed : Prop) (rt : BitVec 4) (v : Word) (s : State) : Prop :=
  (allowed → ∃ t, exec i s = .next t ∧ OnlyRWritten s t rt v) ∧
    (¬ allowed → exec i s = .fault (.undefinedInstruction (.a32 reg) .read s.ctx))

/-- `v` is what Xt holds, 0 for XZR (R14). -/
def XHolds (s : State) (rt : BitVec 5) (v : DWord) : Prop := (rt = 31#5 ∧ v = 0#64) ∨ s.x[rt.toNat]? = some v

/-- The A32 form runs: admitted operands (R94, R97) and a condition that passes (R130). -/
def RunsA32 (s : State) (cond rt : BitVec 4) : Prop :=
  s.ctx.isa = .a32 ∧ cond ≠ 0b1111#4 ∧ rt ≠ 15#4 ∧ conditionPassed s cond = true

/-- The T32 form runs: admitted operands (R97), no condition (R143). -/
def RunsT32 (s : State) (rt : BitVec 4) : Prop := s.ctx.isa = .t32 ∧ rt ≠ 13#4 ∧ rt ≠ 15#4

/-- A value written to a register keeps its reserved positions: 0 in RES0, 1 in RES1 (R12). -/
def ReservedKept {w : Nat} (v res0 res1 : BitVec w) : Prop := v &&& res0 = 0#w ∧ v &&& res1 = res1

/-- `P_RES_WRITE` lets the write proceed: it is `ignore`, or the value keeps the reserved positions (R12, R111, R131). -/
def WriteAccepted {w : Nat} (s : State) (v res0 res1 : BitVec w) : Prop :=
  s.platform.resWrite = .ignore ∨ ReservedKept v res0 res1

/-- The value a register write names keeps the reserved positions of its register (R111, R131): for `MSR` Xt[63:32] are
RES0 positions too (D11). An instruction that writes no register keeps them. -/
def KeepsReserved (s : State) : Instr → Prop
  | .msrFpcr rt => ReservedKept (s.readX rt) 0xFFFFFFFFF83FFFFF#64 0#64
  | .msrFpsr rt => ReservedKept (s.readX rt) 0xFFFFFFFF07FFFF60#64 0#64
  | .msrFpexc32El2 rt => ReservedKept (s.readX rt) 0xFFFFFFFFBFFFF8FF#64 0x700#64
  | .vmsrFpscrA32 _ rt | .vmsrFpscrT32 rt => ReservedKept (s.readR rt) 0x003FFF60#32 0#32
  | .vmsrFpexcA32 _ rt | .vmsrFpexcT32 rt => ReservedKept (s.readR rt) 0xBFFFF8FF#32 0x700#32
  | _ => True

/-- The NaN `y` is the NaN `x` at the output (R154): of its sign, with its fraction bits counted from the most
significant one as far as both formats have them, but for the most significant one itself, which quieting may set and nothing
clears. -/
def Propagates (src dst : FpFormat) (x y : DWord) : Prop :=
  dst.isNaN y = true ∧ dst.sign y = src.sign x ∧
    (∀ k : Nat, 2 ≤ k → k ≤ src.fractionBits → k ≤ dst.fractionBits →
      y.getLsbD (dst.fractionBits - k) = x.getLsbD (src.fractionBits - k)) ∧
    (x.getLsbD (src.fractionBits - 1) = true → y.getLsbD (dst.fractionBits - 1) = true)

/-- The open CPACR, NSACR and HCPTR conditions grant the access (R9, D6). -/
def Granted32 (reg : SysReg32) (s : State) : Prop :=
  ((s.platform.a32FpEnabled.get reg).get s.ctx.el).get s.ctx.secure = true

/-- EN does not disable AArch32 execution: it is 1, or EL1 is AArch64 (R52). -/
def EnabledByEn (s : State) : Prop := s.en = true ∨ s.platform.elState.el1 = .aarch64

/-- A field of one bit at its place in a register read into Xt. -/
def bitAt (b : Bool) (n : Nat) : DWord := (BitVec.ofBool b).setWidth 64 <<< n

/-- `(F.AHP << 26) | (F.DN << 25) | (F.FZ << 24) | (F.RMode << 22)` (R26, R112). -/
def fpcrFormula (f : FieldStore) : DWord :=
  bitAt f.control.ahp 26 ||| bitAt f.control.dn 25 ||| bitAt f.control.fz 24 ||| (f.control.rmode.bits.setWidth 64 <<< 22)

/-- `(F.N << 31) | (F.Z << 30) | ... | F.IOC` (R29). -/
def fpsrFormula (f : FieldStore) : DWord :=
  bitAt f.flags.n 31 ||| bitAt f.flags.z 30 ||| bitAt f.flags.c 29 ||| bitAt f.flags.v 28 ||| bitAt f.qc 27 |||
    bitAt f.exc.idc 7 ||| bitAt f.exc.ixc 4 ||| bitAt f.exc.ufc 3 ||| bitAt f.exc.ofc 2 ||| bitAt f.exc.dzc 1 |||
    bitAt f.exc.ioc 0

/-- `(EN << 30) | 0x00000700` (R38, R50). -/
def fpexcFormula (en : Bool) : DWord := bitAt en 30 ||| 0x700#64

/-- The context is one the platform has (D9): the level is implemented and uses the execution state the core is in. -/
def State.contextAllowed (s : State) : Bool :=
  s.platform.elImplemented.get s.ctx.el && s.platform.elState.get s.ctx.el == s.ctx.isa.execState

/-- The invariant of a run: the program text is in its canonical form, the context is one the platform has, and in AArch32
the program counter has 32 bits (R14). -/
def State.Inv (s : State) : Prop :=
  s.mem.wf = true ∧ s.contextAllowed = true ∧ (s.ctx.isa.execState = .aarch32 → s.pc.toNat < 2 ^ 32)

/-- The instructions that write the control fields (R157). -/
def writesControl : Instr → Bool
  | .msrFpcr _ | .vmsrFpscrA32 _ _ | .vmsrFpscrT32 _ => true
  | _ => false

/-- The instructions that write the status fields (R59, R115, R134). -/
def writesStatus : Instr → Bool
  | .msrFpsr _ | .vmsrFpscrA32 _ _ | .vmsrFpscrT32 _ => true
  | _ => false

/-- The instructions that write EN (R120, R139). -/
def writesEn : Instr → Bool
  | .msrFpexc32El2 _ | .vmsrFpexcA32 _ _ | .vmsrFpexcT32 _ => true
  | _ => false

/-- The instructions the spec refuses: writes of read-only registers (R122, R142), FPINST and FPINST2 (R141). -/
def refusedBySpec : Instr → Bool
  | .msrMvfr0El1 _ | .msrMvfr1El1 _ | .msrMvfr2El1 _ => true
  | .vmsrFpsidA32 _ _ | .vmsrMvfr0A32 _ _ | .vmsrMvfr1A32 _ _ | .vmsrMvfr2A32 _ _ => true
  | .vmsrFpsidT32 _ | .vmsrMvfr0T32 _ | .vmsrMvfr1T32 _ | .vmsrMvfr2T32 _ => true
  | .vmrsFpinstA32 _ _ | .vmsrFpinstA32 _ _ | .vmrsFpinst2A32 _ _ | .vmsrFpinst2A32 _ _ => true
  | .vmrsFpinstT32 _ | .vmsrFpinstT32 _ | .vmrsFpinst2T32 _ | .vmsrFpinst2T32 _ => true
  | _ => false

/-- The register access an instruction performs; none for one the spec refuses (R122, R141, R142). -/
def accessOf : Instr → Option (SysReg × Access)
  | .mrsFpcr _ => some (.a64 .fpcr, .read)
  | .mrsFpsr _ => some (.a64 .fpsr, .read)
  | .mrsMvfr0El1 _ => some (.a64 .mvfr0El1, .read)
  | .mrsMvfr1El1 _ => some (.a64 .mvfr1El1, .read)
  | .mrsMvfr2El1 _ => some (.a64 .mvfr2El1, .read)
  | .mrsFpexc32El2 _ => some (.a64 .fpexc32El2, .read)
  | .mrsIdAa64pfr0El1 _ => some (.a64 .idAa64pfr0El1, .read)
  | .msrFpcr _ => some (.a64 .fpcr, .write)
  | .msrFpsr _ => some (.a64 .fpsr, .write)
  | .msrFpexc32El2 _ => some (.a64 .fpexc32El2, .write)
  | .vmrsFpsidA32 _ _ | .vmrsFpsidT32 _ => some (.a32 .fpsid, .read)
  | .vmrsFpscrA32 _ _ | .vmrsFpscrT32 _ | .vmrsApsrFpscrA32 _ | .vmrsApsrFpscrT32 => some (.a32 .fpscr, .read)
  | .vmrsMvfr0A32 _ _ | .vmrsMvfr0T32 _ => some (.a32 .mvfr0, .read)
  | .vmrsMvfr1A32 _ _ | .vmrsMvfr1T32 _ => some (.a32 .mvfr1, .read)
  | .vmrsMvfr2A32 _ _ | .vmrsMvfr2T32 _ => some (.a32 .mvfr2, .read)
  | .vmrsFpexcA32 _ _ | .vmrsFpexcT32 _ => some (.a32 .fpexc, .read)
  | .vmsrFpscrA32 _ _ | .vmsrFpscrT32 _ => some (.a32 .fpscr, .write)
  | .vmsrFpexcA32 _ _ | .vmsrFpexcT32 _ => some (.a32 .fpexc, .write)
  | .msrMvfr0El1 _ | .msrMvfr1El1 _ | .msrMvfr2El1 _ => none
  | .vmsrFpsidA32 _ _ | .vmsrMvfr0A32 _ _ | .vmsrMvfr1A32 _ _ | .vmsrMvfr2A32 _ _ => none
  | .vmsrFpsidT32 _ | .vmsrMvfr0T32 _ | .vmsrMvfr1T32 _ | .vmsrMvfr2T32 _ => none
  | .vmrsFpinstA32 _ _ | .vmsrFpinstA32 _ _ | .vmrsFpinst2A32 _ _ | .vmsrFpinst2A32 _ _ => none
  | .vmrsFpinstT32 _ | .vmsrFpinstT32 _ | .vmrsFpinst2T32 _ | .vmsrFpinst2T32 _ => none

/-- The condition field of an A32 instruction; every other instruction always executes (R130, R143). -/
def condOf : Instr → BitVec 4
  | .vmrsApsrFpscrA32 cond | .vmrsFpsidA32 cond _ | .vmsrFpsidA32 cond _ | .vmrsFpscrA32 cond _
  | .vmsrFpscrA32 cond _ | .vmrsMvfr0A32 cond _ | .vmsrMvfr0A32 cond _ | .vmrsMvfr1A32 cond _
  | .vmsrMvfr1A32 cond _ | .vmrsMvfr2A32 cond _ | .vmsrMvfr2A32 cond _ | .vmrsFpexcA32 cond _
  | .vmsrFpexcA32 cond _ | .vmrsFpinstA32 cond _ | .vmsrFpinstA32 cond _ | .vmrsFpinst2A32 cond _
  | .vmsrFpinst2A32 cond _ => cond
  | _ => 0b1110#4

/-- The right an access to a register has (R60). -/
def rightOf (s : State) : SysReg → Right
  | .a64 reg => acc64 reg s
  | .a32 reg => acc32 reg s

/-- A64 `MRS <Xt>, FPEXC32_EL2`, the one instruction that reads EN in AArch64. -/
def readsEn64 : Instr → Bool
  | .mrsFpexc32El2 _ => true
  | _ => false

end Sys2Proof.Machine
end

