-- ==== Sys2Proof/Certificates/Slice0/Obligations.lean ====
section
/-! DEFINITION. The statements for the provers, from the numbered rules of the spec. -/

open Sys2Proof Sys2Proof.Machine

/-- After reset every register of the extension reads its reset value, and the field store and EN are 0 (R56). -/
def Obligations.ResetLeavesTheStatedRegisterValues : Prop :=
  ∀ (ctx : Ctx) (pc : BitVec 64) (platform : Platform),
  let s := State.resetIn ctx pc platform
  s.f = ⟨⟨false, false, false, false⟩, false, ⟨false, false, false, .rn⟩, ⟨false, false, false, false, false, false⟩⟩ ∧
  s.en = false ∧
  view64 s .fpcr = 0#64 ∧ view64 s .fpsr = 0#64 ∧ view32 s .fpscr = 0#32 ∧
  view64 s .fpexc32El2 = 0x700#64 ∧ view32 s .fpexc = 0x700#32 ∧
  view64 s .mvfr0El1 = 0x10110222#64 ∧ view32 s .mvfr0 = 0x10110222#32 ∧
  view64 s .mvfr1El1 = 0x12111111#64 ∧ view32 s .mvfr1 = 0x12111111#32 ∧
  view64 s .mvfr2El1 = 0x43#64 ∧ view32 s .mvfr2 = 0x43#32 ∧
  view32 s .fpsid = 0x41034034#32 ∧
  (table64 .fpcr .el3 = .rw ∧ table64 .fpsr .el3 = .rw ∧ table64 .fpexc32El2 .el2 = .rw ∧
    table64 .fpexc32El2 .el3 = .rw ∧
    table64 .mvfr0El1 .el3 = .ro ∧ table64 .mvfr1El1 .el3 = .ro ∧ table64 .mvfr2El1 .el3 = .ro) ∧
  (type32 .fpscr = .rw ∧ type32 .fpexc = .rw ∧ type32 .fpsid = .ro ∧ type32 .mvfr0 = .ro ∧ type32 .mvfr1 = .ro ∧
    type32 .mvfr2 = .ro)

/-- MVFR0, MVFR1, MVFR2 and FPSID hold the field values of their bit-assignment tables (R32, R34, R36, R41, R8). -/
def Obligations.IdentificationWordsHoldTheirFields : Prop :=
  ∀ s : State,
  (let w := view32 s .mvfr0
   w.extractLsb' 28 4 = 1#4 ∧ w.extractLsb' 24 4 = 0#4 ∧ w.extractLsb' 20 4 = 1#4 ∧ w.extractLsb' 16 4 = 1#4 ∧
     w.extractLsb' 12 4 = 0#4 ∧ w.extractLsb' 8 4 = 2#4 ∧ w.extractLsb' 4 4 = 2#4 ∧ w.extractLsb' 0 4 = 2#4 ∧
     view64 s .mvfr0El1 = w.setWidth 64) ∧
  (let w := view32 s .mvfr1
   w.extractLsb' 28 4 = 1#4 ∧ w.extractLsb' 24 4 = 2#4 ∧ w.extractLsb' 20 4 = 1#4 ∧ w.extractLsb' 16 4 = 1#4 ∧
     w.extractLsb' 12 4 = 1#4 ∧ w.extractLsb' 8 4 = 1#4 ∧ w.extractLsb' 4 4 = 1#4 ∧ w.extractLsb' 0 4 = 1#4 ∧
     view64 s .mvfr1El1 = w.setWidth 64) ∧
  (let w := view32 s .mvfr2
   w.extractLsb' 8 24 = 0#24 ∧ w.extractLsb' 4 4 = 4#4 ∧ w.extractLsb' 0 4 = 3#4 ∧
     view64 s .mvfr2El1 = w.setWidth 64) ∧
  (let w := view32 s .fpsid
   w.extractLsb' 24 8 = 0x41#8 ∧ w.extractLsb' 23 1 = 0#1 ∧ w.extractLsb' 16 7 = 0x03#7 ∧
     w.extractLsb' 8 8 = 0x40#8 ∧ w.extractLsb' 4 4 = 3#4 ∧ w.extractLsb' 0 4 = 4#4)

/-- FPSCR is the union of FPCR and FPSR, and writing it is writing both (R45). -/
def Obligations.FpscrFpcrAndFpsrAreViewsOfOneStore : Prop :=
  (∀ f : FieldStore,
    (fpscrView f).extractLsb' 22 5 = (fpcrView f).extractLsb' 22 5 ∧
    (fpscrView f).extractLsb' 27 5 = (fpsrView f).extractLsb' 27 5 ∧
    (fpscrView f).getLsbD 7 = (fpsrView f).getLsbD 7 ∧
    (fpscrView f).extractLsb' 0 5 = (fpsrView f).extractLsb' 0 5 ∧
    fpscrView f = fpcrView f ||| fpsrView f) ∧
  (∀ (f : FieldStore) (v : Word),
    writeFpscr v f = writeFpsr (v &&& 0xF800009F#32) (writeFpcr (v &&& 0x07C00000#32) f)) ∧
  ∀ (s : State) (ctx : Ctx), (s.withCtx ctx).f = s.f

/-- A written register reads back the written bits inside its writable mask, its RES0 bits 0 and its RES1 bits 1 (the other bits dropped, as `ignore` does, log 2) (R26, R29, R38, R43, R50, R12). -/
def Obligations.WrittenRegistersReadBackInTheirMasks : Prop :=
  ∀ (v : Word) (f : FieldStore),
  fpcrView (writeFpcr v f) = v &&& 0x07C00000#32 ∧ fpsrView (writeFpcr v f) = fpsrView f ∧
  fpsrView (writeFpsr v f) = v &&& 0xF800009F#32 ∧ fpcrView (writeFpsr v f) = fpcrView f ∧
  fpscrView (writeFpscr v f) = v &&& 0xFFC0009F#32 ∧
  fpexcView (enOfWord v) = (v &&& 0x40000000#32) ||| 0x00000700#32

/-- Writing a register with its current value changes nothing (R26, R29, R43, R38, R111). -/
def Obligations.ReadingAndWritingBackKeepsTheFields : Prop :=
  ∀ (f : FieldStore) (en : Bool),
  writeFpcr (fpcrView f) f = f ∧ writeFpsr (fpsrView f) f = f ∧ writeFpscr (fpscrView f) f = f ∧
    enOfWord (fpexcView en) = en

/-- Decoding the bytes of a well-formed instruction, in its instruction set, gives that instruction back (R92, R93, R94, R95, R96, R101). -/
def Obligations.DecodeOfEncodeIsTheInstruction : Prop :=
  ∀ (i : Instr) (rest : List Byte), i.wf = true → decodeBytes i.isa (encodeBytes i ++ rest) = .ok i

/-- A word that decodes is the encoding of the instruction it gives, which is well formed and of that instruction set (R92, R93, R94, R95, R96, R101). -/
def Obligations.EncodeOfDecodeIsTheWord : Prop :=
  ∀ (isa : Isa) (w : Word) (i : Instr), decodeWord isa w = .ok i → i.wf = true ∧ i.isa = isa ∧ encode i = w

/-- Words written out from the spec's tables decode to the instructions they stand for (R93, R94, R95, R96). -/
def Obligations.WordsWrittenFromTheTablesDecode : Prop :=
  decodeWord .a64 0xD53B4400#32 = .ok (.mrsFpcr 0#5) ∧
  decodeWord .a64 0xD51B443F#32 = .ok (.msrFpsr 31#5) ∧
  decodeWord .a64 0xD51C5300#32 = .ok (.msrFpexc32El2 0#5) ∧
  decodeWord .a32 0xEEF12A10#32 = .ok (.vmrsFpscrA32 0b1110#4 2#4) ∧
  decodeWord .a32 0x0EF10A10#32 = .ok (.vmrsFpscrA32 0b0000#4 0#4) ∧
  decodeWord .a32 0xEEF1FA10#32 = .ok (.vmrsApsrFpscrA32 0b1110#4) ∧
  decodeBytes .t32 [0xF1#8, 0xEE#8, 0x10#8, 0x0A#8] = .ok (.vmrsFpscrT32 0#4) ∧
  decodeBytes .a64 [0x05#8, 0x44#8, 0x3B#8, 0xD5#8] = .ok (.mrsFpcr 5#5)

/-- A word outside the layouts, selectors and register numbers of the spec is refused as not in source (R101, R98, R96, R94). -/
def Obligations.WordsOutsideTheSpecAreRefusedByName : Prop :=
  (∀ w : Word, w &&& 0xFFF00000#32 ≠ 0xD5300000#32 → w &&& 0xFFF00000#32 ≠ 0xD5100000#32 →
    decodeWord .a64 w = .error (.notInSource w)) ∧
  (∀ w : Word, (∀ reg : SysReg64, selectorOf reg ≠ selectorField w) → decodeWord .a64 w = .error (.notInSource w)) ∧
  (∀ w : Word, (w &&& 0x0FE00FFF#32 ≠ 0x0EE00A10#32 ∨ condField w = 0b1111#4) →
    decodeWord .a32 w = .error (.notInSource w)) ∧
  (∀ w : Word, w &&& 0xFFE00FFF#32 ≠ 0xEEE00A10#32 → decodeWord .t32 w = .error (.notInSource w)) ∧
  (∀ w : Word, regField w ∉ [0#4, 1#4, 5#4, 6#4, 7#4, 8#4, 9#4, 10#4] →
    decodeWord .a32 w = .error (.notInSource w) ∧ decodeWord .t32 w = .error (.notInSource w)) ∧
  ∀ rt : BitVec 5, decodeWord .a64 (0xD5180400#32 ||| rt.setWidth 32) =
    .error (.notInSource (0xD5180400#32 ||| rt.setWidth 32))

/-- Rt = 15 outside VMRS APSR_nzcv, and Rt = 13 in T32, are refused by the decoder (R97, R187, R130, R131). -/
def Obligations.ExcludedRegisterNumbersAreRefusedByTheDecoder : Prop :=
  (∀ w : Word, w &&& 0x0FE00FFF#32 = 0x0EE00A10#32 → condField w ≠ 0b1111#4 →
    regField w ∈ [0#4, 1#4, 5#4, 6#4, 7#4, 8#4, 9#4, 10#4] → rtField w = 15#4 →
    ¬ (lField w = true ∧ regField w = 1#4) → decodeWord .a32 w = .error (.rtNotPermitted w)) ∧
  (∀ w : Word, w &&& 0xFFE00FFF#32 = 0xEEE00A10#32 →
    regField w ∈ [0#4, 1#4, 5#4, 6#4, 7#4, 8#4, 9#4, 10#4] →
    (rtField w = 13#4 ∨ (rtField w = 15#4 ∧ ¬ (lField w = true ∧ regField w = 1#4))) →
    decodeWord .t32 w = .error (.rtNotPermitted w))

/-- Acc64 and Acc32 are the tables of R60 with the open enables applied (R60). -/
def Obligations.AccessRightsAreTheTables : Prop :=
  (∀ s : State, a64FpAccessEnabled s = false → ∀ reg : SysReg64, acc64 reg s = .none) ∧
  (∀ s : State, a64FpAccessEnabled s = true →
    acc64 .fpcr s = .rw ∧ acc64 .fpsr s = .rw ∧
    (∀ reg ∈ [SysReg64.mvfr0El1, .mvfr1El1, .mvfr2El1], acc64 reg s = if s.ctx.el = .el0 then .none else .ro) ∧
    acc64 .fpexc32El2 s = if s.ctx.el = .el0 ∨ s.ctx.el = .el1 then .none else .rw) ∧
  (∀ (reg : SysReg32) (el : El) (secure : Bool), table32 reg el secure =
    if el = .el0 ∧ reg ≠ .fpscr then .dash
    else if el = .el2 ∨ secure = false then .config
    else if reg = .fpscr ∨ reg = .fpexc then .rw else .ro) ∧
  (∀ s : State, s.ctx.isa ≠ .a64 →
    (∀ reg ∈ [SysReg32.mvfr0, .mvfr1, .mvfr2],
      (s.ctx.el ≠ .el0 ∧ Granted32 reg s ∧ EnabledByEn s → acc32 reg s = .ro) ∧
      (¬ (s.ctx.el ≠ .el0 ∧ Granted32 reg s ∧ EnabledByEn s) → acc32 reg s = .none)) ∧
    (Granted32 .fpscr s ∧ EnabledByEn s → acc32 .fpscr s = .rw) ∧
    (¬ (Granted32 .fpscr s ∧ EnabledByEn s) → acc32 .fpscr s = .none) ∧
    (s.ctx.el ≠ .el0 ∧ Granted32 .fpsid s → acc32 .fpsid s = .ro) ∧
    (¬ (s.ctx.el ≠ .el0 ∧ Granted32 .fpsid s) → acc32 .fpsid s = .none) ∧
    (s.ctx.el ≠ .el0 ∧ Granted32 .fpexc s → acc32 .fpexc s = .rw) ∧
    (¬ (s.ctx.el ≠ .el0 ∧ Granted32 .fpexc s) → acc32 .fpexc s = .none)) ∧
  ∀ (s : State) (b : Bool), acc32 .fpsid { s with en := b } = acc32 .fpsid s ∧
    acc32 .fpexc { s with en := b } = acc32 .fpexc s

/-- MRS Xt, FPCR: Xt takes the control fields at their places, at every level, and nothing else changes but the pc (R112). -/
def Obligations.MrsFpcrReadsTheControlFields : Prop :=
  ∀ (rt : BitVec 5) (s : State), s.ctx.isa = .a64 →
  encode (.mrsFpcr rt) = 0xD53B4400#32 ||| rt.setWidth 32 ∧
  ReadsIntoX (.mrsFpcr rt) .fpcr (a64FpAccessEnabled s = true) rt (fpcrFormula s.f) s ∧
  fpcrFormula s.f &&& 0x07C00000#64 = fpcrFormula s.f ∧ (s.f = FieldStore.reset → fpcrFormula s.f = 0#64)

/-- MRS Xt, FPSR: Xt takes the status fields at their places, and no cumulative bit is cleared (R114). -/
def Obligations.MrsFpsrReadsTheStatusFields : Prop :=
  ∀ (rt : BitVec 5) (s : State), s.ctx.isa = .a64 →
  encode (.mrsFpsr rt) = 0xD53B4420#32 ||| rt.setWidth 32 ∧
  ReadsIntoX (.mrsFpsr rt) .fpsr (a64FpAccessEnabled s = true) rt (fpsrFormula s.f) s ∧
  fpsrFormula s.f &&& 0xF800009F#64 = fpsrFormula s.f

/-- MRS Xt, MVFR0_EL1, MVFR1_EL1, MVFR2_EL1: the constants above EL0, the access fault at EL0 (R116, R117, R118). -/
def Obligations.MrsMvfrReadsTheConstants : Prop :=
  ∀ (rt : BitVec 5) (s : State), s.ctx.isa = .a64 →
  (encode (.mrsMvfr0El1 rt) = 0xD5380300#32 ||| rt.setWidth 32 ∧
    ReadsIntoX (.mrsMvfr0El1 rt) .mvfr0El1 (a64FpAccessEnabled s = true ∧ s.ctx.el ≠ .el0) rt 0x10110222#64 s) ∧
  (encode (.mrsMvfr1El1 rt) = 0xD5380320#32 ||| rt.setWidth 32 ∧
    ReadsIntoX (.mrsMvfr1El1 rt) .mvfr1El1 (a64FpAccessEnabled s = true ∧ s.ctx.el ≠ .el0) rt 0x12111111#64 s) ∧
  (encode (.mrsMvfr2El1 rt) = 0xD5380340#32 ||| rt.setWidth 32 ∧
    ReadsIntoX (.mrsMvfr2El1 rt) .mvfr2El1 (a64FpAccessEnabled s = true ∧ s.ctx.el ≠ .el0) rt 0x43#64 s)

/-- MRS Xt, FPEXC32_EL2: 0x700 or 0x40000700 at EL2 and EL3, the access fault at EL0 and EL1 (R119). -/
def Obligations.MrsFpexc32ReadsEn : Prop :=
  ∀ (rt : BitVec 5) (s : State), s.ctx.isa = .a64 →
  encode (.mrsFpexc32El2 rt) = 0xD53C5300#32 ||| rt.setWidth 32 ∧
  ReadsIntoX (.mrsFpexc32El2 rt) .fpexc32El2 (a64FpAccessEnabled s = true ∧ (s.ctx.el = .el2 ∨ s.ctx.el = .el3)) rt (fpexcFormula s.en) s ∧
  (s.en = false → fpexcFormula s.en = 0x700#64) ∧ (s.en = true → fpexcFormula s.en = 0x40000700#64)

/-- MRS Xt, ID_AA64PFR0_EL1: the open value P_ID_AA64PFR0 above EL0, the access fault at EL0 (R121, D21). -/
def Obligations.MrsIdAa64pfr0ReadsTheOpenValue : Prop :=
  ∀ (rt : BitVec 5) (s : State), s.ctx.isa = .a64 →
  encode (.mrsIdAa64pfr0El1 rt) = 0xD5380400#32 ||| rt.setWidth 32 ∧
  ReadsIntoX (.mrsIdAa64pfr0El1 rt) .idAa64pfr0El1 (a64FpAccessEnabled s = true ∧ s.ctx.el ≠ .el0) rt (Config.idAa64pfr0) s

/-- MSR FPCR, Xt: the five control bits take Xt[26:22] and nothing else changes but the pc, or P_RES_WRITE refuses a reserved bit (R113, R111, D3). -/
def Obligations.MsrFpcrWritesTheControlFields : Prop :=
  ∀ (rt : BitVec 5) (s : State) (v : DWord), s.ctx.isa = .a64 → XHolds s rt v →
  encode (.msrFpcr rt) = 0xD51B4400#32 ||| rt.setWidth 32 ∧
  (a64FpAccessEnabled s = true ∧ WriteAccepted s v 0xFFFFFFFFF83FFFFF#64 0#64 → ∃ t, exec (.msrFpcr rt) s = .next t ∧
    t = { s with pc := nextPc s.ctx.isa s.pc, f := { s.f with control := t.f.control } } ∧
    t.f.control.ahp = v.getLsbD 26 ∧ t.f.control.dn = v.getLsbD 25 ∧ t.f.control.fz = v.getLsbD 24 ∧
    t.f.control.rmode.bits = v.extractLsb' 22 2) ∧
  (a64FpAccessEnabled s = true ∧ ¬ WriteAccepted s v 0xFFFFFFFFF83FFFFF#64 0#64 →
    exec (.msrFpcr rt) s = .refused (.reservedFieldWritten (.a64 .fpcr))) ∧
  (¬ (a64FpAccessEnabled s = true) → exec (.msrFpcr rt) s = .fault (.undefinedInstruction (.a64 .fpcr) .write s.ctx))

/-- MSR FPSR, Xt: the eleven status bits take the bits of Xt and nothing else changes but the pc, or P_RES_WRITE refuses a reserved bit (R115, R111, R181, D3). -/
def Obligations.MsrFpsrWritesTheStatusFields : Prop :=
  ∀ (rt : BitVec 5) (s : State) (v : DWord), s.ctx.isa = .a64 → XHolds s rt v →
  encode (.msrFpsr rt) = 0xD51B4420#32 ||| rt.setWidth 32 ∧
  (a64FpAccessEnabled s = true ∧ WriteAccepted s v 0xFFFFFFFF07FFFF60#64 0#64 → ∃ t, exec (.msrFpsr rt) s = .next t ∧
    t = { s with pc := nextPc s.ctx.isa s.pc, f := { t.f with control := s.f.control } } ∧
    t.f.flags = ⟨v.getLsbD 31, v.getLsbD 30, v.getLsbD 29, v.getLsbD 28⟩ ∧ t.f.qc = v.getLsbD 27 ∧
    t.f.exc = ⟨v.getLsbD 7, v.getLsbD 4, v.getLsbD 3, v.getLsbD 2, v.getLsbD 1, v.getLsbD 0⟩) ∧
  (a64FpAccessEnabled s = true ∧ ¬ WriteAccepted s v 0xFFFFFFFF07FFFF60#64 0#64 →
    exec (.msrFpsr rt) s = .refused (.reservedFieldWritten (.a64 .fpsr))) ∧
  (¬ (a64FpAccessEnabled s = true) → exec (.msrFpsr rt) s = .fault (.undefinedInstruction (.a64 .fpsr) .write s.ctx))

/-- MSR FPEXC32_EL2, Xt: EN takes Xt[30] at EL2 and EL3 and nothing else changes but the pc, or P_RES_WRITE refuses a reserved bit (R120, R111, D3). -/
def Obligations.MsrFpexc32WritesEn : Prop :=
  ∀ (rt : BitVec 5) (s : State) (v : DWord), s.ctx.isa = .a64 → XHolds s rt v →
  encode (.msrFpexc32El2 rt) = 0xD51C5300#32 ||| rt.setWidth 32 ∧
  ((a64FpAccessEnabled s = true ∧ (s.ctx.el = .el2 ∨ s.ctx.el = .el3)) ∧ WriteAccepted s v 0xFFFFFFFFBFFFF8FF#64 0x700#64 → ∃ t, exec (.msrFpexc32El2 rt) s = .next t ∧
    t = { s with pc := nextPc s.ctx.isa s.pc, en := v.getLsbD 30 }) ∧
  ((a64FpAccessEnabled s = true ∧ (s.ctx.el = .el2 ∨ s.ctx.el = .el3)) ∧ ¬ WriteAccepted s v 0xFFFFFFFFBFFFF8FF#64 0x700#64 →
    exec (.msrFpexc32El2 rt) s = .refused (.reservedFieldWritten (.a64 .fpexc32El2))) ∧
  (¬ ((a64FpAccessEnabled s = true ∧ (s.ctx.el = .el2 ∨ s.ctx.el = .el3))) → exec (.msrFpexc32El2 rt) s = .fault (.undefinedInstruction (.a64 .fpexc32El2) .write s.ctx))

/-- MSR MVFR0_EL1, MVFR1_EL1, MVFR2_EL1 are refused in every state (R122). -/
def Obligations.MsrToReadOnlyRegistersIsRefused : Prop :=
  ∀ (rt : BitVec 5) (s : State),
  (decodeWord .a64 (0xD5180300#32 ||| rt.setWidth 32) = .ok (.msrMvfr0El1 rt) ∧
    exec (.msrMvfr0El1 rt) s = .refused (.readOnlyRegister (.a64 .mvfr0El1))) ∧
  (decodeWord .a64 (0xD5180320#32 ||| rt.setWidth 32) = .ok (.msrMvfr1El1 rt) ∧
    exec (.msrMvfr1El1 rt) s = .refused (.readOnlyRegister (.a64 .mvfr1El1))) ∧
  (decodeWord .a64 (0xD5180340#32 ||| rt.setWidth 32) = .ok (.msrMvfr2El1 rt) ∧
    exec (.msrMvfr2El1 rt) s = .refused (.readOnlyRegister (.a64 .mvfr2El1)))

/-- VMRS Rt, FPSID (A32 and T32): 0x41034034 above EL0, whatever EN (R132). -/
def Obligations.VmrsFpsidReadsTheConstant : Prop :=
  ∀ (cond rt : BitVec 4) (s : State),
  (RunsA32 s cond rt →
    encode (.vmrsFpsidA32 cond rt) = 0x0EF00A10#32 ||| (cond.setWidth 32 <<< 28) ||| (rt.setWidth 32 <<< 12) ∧
    ReadsIntoR (.vmrsFpsidA32 cond rt) .fpsid (s.ctx.el ≠ .el0 ∧ Granted32 .fpsid s) rt (0x41034034#32) s) ∧
  (RunsT32 s rt →
    encode (.vmrsFpsidT32 rt) = 0xEEF00A10#32 ||| (rt.setWidth 32 <<< 12) ∧
    ReadsIntoR (.vmrsFpsidT32 rt) .fpsid (s.ctx.el ≠ .el0 ∧ Granted32 .fpsid s) rt (0x41034034#32) s)

/-- VMRS Rt, FPSCR (A32 and T32): the fifteen fields at their places, at every level, where EN enables (R133). -/
def Obligations.VmrsFpscrReadsEveryField : Prop :=
  ∀ (cond rt : BitVec 4) (s : State),
  (RunsA32 s cond rt →
    encode (.vmrsFpscrA32 cond rt) = 0x0EF10A10#32 ||| (cond.setWidth 32 <<< 28) ||| (rt.setWidth 32 <<< 12) ∧
    ReadsIntoR (.vmrsFpscrA32 cond rt) .fpscr (Granted32 .fpscr s ∧ EnabledByEn s) rt ((fpsrFormula s.f ||| fpcrFormula s.f).setWidth 32) s) ∧
  (RunsT32 s rt →
    encode (.vmrsFpscrT32 rt) = 0xEEF10A10#32 ||| (rt.setWidth 32 <<< 12) ∧
    ReadsIntoR (.vmrsFpscrT32 rt) .fpscr (Granted32 .fpscr s ∧ EnabledByEn s) rt ((fpsrFormula s.f ||| fpcrFormula s.f).setWidth 32) s) ∧
  (fpsrFormula s.f ||| fpcrFormula s.f) &&& 0xFFC0009F#64 = (fpsrFormula s.f ||| fpcrFormula s.f)

/-- VMRS Rt, MVFR0, MVFR1, MVFR2 (A32 and T32): the constants above EL0 where EN enables (R135, R136, R137). -/
def Obligations.VmrsMvfrReadsTheConstants : Prop :=
  ∀ (cond rt : BitVec 4) (s : State),
  (RunsA32 s cond rt →
    encode (.vmrsMvfr0A32 cond rt) = 0x0EF70A10#32 ||| (cond.setWidth 32 <<< 28) ||| (rt.setWidth 32 <<< 12) ∧
    ReadsIntoR (.vmrsMvfr0A32 cond rt) .mvfr0 (s.ctx.el ≠ .el0 ∧ Granted32 .mvfr0 s ∧ EnabledByEn s) rt 0x10110222#32 s) ∧
  (RunsT32 s rt →
    encode (.vmrsMvfr0T32 rt) = 0xEEF70A10#32 ||| (rt.setWidth 32 <<< 12) ∧
    ReadsIntoR (.vmrsMvfr0T32 rt) .mvfr0 (s.ctx.el ≠ .el0 ∧ Granted32 .mvfr0 s ∧ EnabledByEn s) rt 0x10110222#32 s) ∧
  (RunsA32 s cond rt →
    encode (.vmrsMvfr1A32 cond rt) = 0x0EF60A10#32 ||| (cond.setWidth 32 <<< 28) ||| (rt.setWidth 32 <<< 12) ∧
    ReadsIntoR (.vmrsMvfr1A32 cond rt) .mvfr1 (s.ctx.el ≠ .el0 ∧ Granted32 .mvfr1 s ∧ EnabledByEn s) rt 0x12111111#32 s) ∧
  (RunsT32 s rt →
    encode (.vmrsMvfr1T32 rt) = 0xEEF60A10#32 ||| (rt.setWidth 32 <<< 12) ∧
    ReadsIntoR (.vmrsMvfr1T32 rt) .mvfr1 (s.ctx.el ≠ .el0 ∧ Granted32 .mvfr1 s ∧ EnabledByEn s) rt 0x12111111#32 s) ∧
  (RunsA32 s cond rt →
    encode (.vmrsMvfr2A32 cond rt) = 0x0EF50A10#32 ||| (cond.setWidth 32 <<< 28) ||| (rt.setWidth 32 <<< 12) ∧
    ReadsIntoR (.vmrsMvfr2A32 cond rt) .mvfr2 (s.ctx.el ≠ .el0 ∧ Granted32 .mvfr2 s ∧ EnabledByEn s) rt 0x43#32 s) ∧
  (RunsT32 s rt →
    encode (.vmrsMvfr2T32 rt) = 0xEEF50A10#32 ||| (rt.setWidth 32 <<< 12) ∧
    ReadsIntoR (.vmrsMvfr2T32 rt) .mvfr2 (s.ctx.el ≠ .el0 ∧ Granted32 .mvfr2 s ∧ EnabledByEn s) rt 0x43#32 s)

/-- VMRS Rt, FPEXC (A32 and T32): 0x700 or 0x40000700 above EL0, whatever EN (R138). -/
def Obligations.VmrsFpexcReadsEn : Prop :=
  ∀ (cond rt : BitVec 4) (s : State),
  (RunsA32 s cond rt →
    encode (.vmrsFpexcA32 cond rt) = 0x0EF80A10#32 ||| (cond.setWidth 32 <<< 28) ||| (rt.setWidth 32 <<< 12) ∧
    ReadsIntoR (.vmrsFpexcA32 cond rt) .fpexc (s.ctx.el ≠ .el0 ∧ Granted32 .fpexc s) rt ((fpexcFormula s.en).setWidth 32) s) ∧
  (RunsT32 s rt →
    encode (.vmrsFpexcT32 rt) = 0xEEF80A10#32 ||| (rt.setWidth 32 <<< 12) ∧
    ReadsIntoR (.vmrsFpexcT32 rt) .fpexc (s.ctx.el ≠ .el0 ∧ Granted32 .fpexc s) rt ((fpexcFormula s.en).setWidth 32) s) ∧
  (s.en = false → fpexcFormula s.en = 0x700#64) ∧ (s.en = true → fpexcFormula s.en = 0x40000700#64)

/-- VMSR FPSCR, Rt (A32 and T32): all fifteen fields take the bits of Rt, at every level, or P_RES_WRITE refuses a reserved bit (R134, R131, R181, D3). -/
def Obligations.VmsrFpscrWritesEveryField : Prop :=
  ∀ (cond rt : BitVec 4) (s : State) (v : Word), s.r[rt.toNat]? = some v →
  let written : State → Prop := fun t =>
    t = { s with pc := nextPc s.ctx.isa s.pc, f := t.f } ∧
    t.f.flags = ⟨v.getLsbD 31, v.getLsbD 30, v.getLsbD 29, v.getLsbD 28⟩ ∧ t.f.qc = v.getLsbD 27 ∧
    t.f.control.ahp = v.getLsbD 26 ∧ t.f.control.dn = v.getLsbD 25 ∧ t.f.control.fz = v.getLsbD 24 ∧
    t.f.control.rmode.bits = v.extractLsb' 22 2 ∧
    t.f.exc = ⟨v.getLsbD 7, v.getLsbD 4, v.getLsbD 3, v.getLsbD 2, v.getLsbD 1, v.getLsbD 0⟩
  (RunsA32 s cond rt →
    encode (.vmsrFpscrA32 cond rt) = 0x0EE10A10#32 ||| (cond.setWidth 32 <<< 28) ||| (rt.setWidth 32 <<< 12) ∧
    (Granted32 .fpscr s ∧ EnabledByEn s ∧ WriteAccepted s v 0x003FFF60#32 0#32 →
      ∃ t, exec (.vmsrFpscrA32 cond rt) s = .next t ∧ written t) ∧
    (Granted32 .fpscr s ∧ EnabledByEn s ∧ ¬ WriteAccepted s v 0x003FFF60#32 0#32 →
      exec (.vmsrFpscrA32 cond rt) s = .refused (.reservedFieldWritten (.a32 .fpscr))) ∧
    (¬ (Granted32 .fpscr s ∧ EnabledByEn s) →
      exec (.vmsrFpscrA32 cond rt) s = .fault (.undefinedInstruction (.a32 .fpscr) .write s.ctx))) ∧
  (RunsT32 s rt →
    encode (.vmsrFpscrT32 rt) = 0xEEE10A10#32 ||| (rt.setWidth 32 <<< 12) ∧
    (Granted32 .fpscr s ∧ EnabledByEn s ∧ WriteAccepted s v 0x003FFF60#32 0#32 →
      ∃ t, exec (.vmsrFpscrT32 rt) s = .next t ∧ written t) ∧
    (Granted32 .fpscr s ∧ EnabledByEn s ∧ ¬ WriteAccepted s v 0x003FFF60#32 0#32 →
      exec (.vmsrFpscrT32 rt) s = .refused (.reservedFieldWritten (.a32 .fpscr))) ∧
    (¬ (Granted32 .fpscr s ∧ EnabledByEn s) →
      exec (.vmsrFpscrT32 rt) s = .fault (.undefinedInstruction (.a32 .fpscr) .write s.ctx)))

/-- VMSR FPEXC, Rt (A32 and T32): EN takes Rt[30] above EL0, whatever EN was, or P_RES_WRITE refuses a reserved bit (R139, R131, D3). -/
def Obligations.VmsrFpexcWritesEn : Prop :=
  ∀ (cond rt : BitVec 4) (s : State) (v : Word), s.r[rt.toNat]? = some v →
  (RunsA32 s cond rt →
    encode (.vmsrFpexcA32 cond rt) = 0x0EE80A10#32 ||| (cond.setWidth 32 <<< 28) ||| (rt.setWidth 32 <<< 12) ∧
    ((s.ctx.el ≠ .el0 ∧ Granted32 .fpexc s) ∧ WriteAccepted s v 0xBFFFF8FF#32 0x700#32 → exec (.vmsrFpexcA32 cond rt) s = .next { s with pc := nextPc s.ctx.isa s.pc, en := v.getLsbD 30 }) ∧
    ((s.ctx.el ≠ .el0 ∧ Granted32 .fpexc s) ∧ ¬ WriteAccepted s v 0xBFFFF8FF#32 0x700#32 →
      exec (.vmsrFpexcA32 cond rt) s = .refused (.reservedFieldWritten (.a32 .fpexc))) ∧
    (¬ ((s.ctx.el ≠ .el0 ∧ Granted32 .fpexc s)) → exec (.vmsrFpexcA32 cond rt) s = .fault (.undefinedInstruction (.a32 .fpexc) .write s.ctx))) ∧
  (RunsT32 s rt →
    encode (.vmsrFpexcT32 rt) = 0xEEE80A10#32 ||| (rt.setWidth 32 <<< 12) ∧
    ((s.ctx.el ≠ .el0 ∧ Granted32 .fpexc s) ∧ WriteAccepted s v 0xBFFFF8FF#32 0x700#32 → exec (.vmsrFpexcT32 rt) s = .next { s with pc := nextPc s.ctx.isa s.pc, en := v.getLsbD 30 }) ∧
    ((s.ctx.el ≠ .el0 ∧ Granted32 .fpexc s) ∧ ¬ WriteAccepted s v 0xBFFFF8FF#32 0x700#32 →
      exec (.vmsrFpexcT32 rt) s = .refused (.reservedFieldWritten (.a32 .fpexc))) ∧
    (¬ ((s.ctx.el ≠ .el0 ∧ Granted32 .fpexc s)) → exec (.vmsrFpexcT32 rt) s = .fault (.undefinedInstruction (.a32 .fpexc) .write s.ctx)))

/-- VMRS APSR_nzcv, FPSCR (A32 and T32): APSR takes F.N, Z, C, V, no register is written, and PSTATE stays (the model's choice, log 19) (R140). -/
def Obligations.VmrsApsrCopiesTheFlags : Prop :=
  ∀ (cond : BitVec 4) (s : State),
  let moved : State := { s with pc := nextPc s.ctx.isa s.pc, apsr := ⟨s.f.flags.n, s.f.flags.z, s.f.flags.c, s.f.flags.v⟩ }
  (RunsA32 s cond 0#4 →
    encode (.vmrsApsrFpscrA32 cond) = 0x0EF1FA10#32 ||| (cond.setWidth 32 <<< 28) ∧
    (Granted32 .fpscr s ∧ EnabledByEn s → exec (.vmrsApsrFpscrA32 cond) s = .next moved) ∧
    (¬ (Granted32 .fpscr s ∧ EnabledByEn s) →
      exec (.vmrsApsrFpscrA32 cond) s = .fault (.undefinedInstruction (.a32 .fpscr) .read s.ctx))) ∧
  (s.ctx.isa = .t32 →
    encode .vmrsApsrFpscrT32 = 0xEEF1FA10#32 ∧
    (Granted32 .fpscr s ∧ EnabledByEn s → exec .vmrsApsrFpscrT32 s = .next moved) ∧
    (¬ (Granted32 .fpscr s ∧ EnabledByEn s) →
      exec .vmrsApsrFpscrT32 s = .fault (.undefinedInstruction (.a32 .fpscr) .read s.ctx)))

/-- VMSR FPSID, MVFR0, MVFR1, MVFR2 (A32 and T32) are refused in every state (R142). -/
def Obligations.VmsrToReadOnlyRegistersIsRefused : Prop :=
  ∀ (cond rt : BitVec 4) (s : State),
  (exec (.vmsrFpsidA32 cond rt) s = .refused (.readOnlyRegister (.a32 .fpsid)) ∧
    exec (.vmsrMvfr0A32 cond rt) s = .refused (.readOnlyRegister (.a32 .mvfr0)) ∧
    exec (.vmsrMvfr1A32 cond rt) s = .refused (.readOnlyRegister (.a32 .mvfr1)) ∧
    exec (.vmsrMvfr2A32 cond rt) s = .refused (.readOnlyRegister (.a32 .mvfr2))) ∧
  (exec (.vmsrFpsidT32 rt) s = .refused (.readOnlyRegister (.a32 .fpsid)) ∧
    exec (.vmsrMvfr0T32 rt) s = .refused (.readOnlyRegister (.a32 .mvfr0)) ∧
    exec (.vmsrMvfr1T32 rt) s = .refused (.readOnlyRegister (.a32 .mvfr1)) ∧
    exec (.vmsrMvfr2T32 rt) s = .refused (.readOnlyRegister (.a32 .mvfr2))) ∧
  (cond ≠ 0b1111#4 → rt ≠ 15#4 →
    let word (base : Word) : Word := base ||| (cond.setWidth 32 <<< 28) ||| (rt.setWidth 32 <<< 12)
    decodeWord .a32 (word 0x0EE00A10#32) = .ok (.vmsrFpsidA32 cond rt) ∧
    decodeWord .a32 (word 0x0EE70A10#32) = .ok (.vmsrMvfr0A32 cond rt) ∧
    decodeWord .a32 (word 0x0EE60A10#32) = .ok (.vmsrMvfr1A32 cond rt) ∧
    decodeWord .a32 (word 0x0EE50A10#32) = .ok (.vmsrMvfr2A32 cond rt)) ∧
  (rt ≠ 13#4 → rt ≠ 15#4 →
    let word (base : Word) : Word := base ||| (rt.setWidth 32 <<< 12)
    decodeWord .t32 (word 0xEEE00A10#32) = .ok (.vmsrFpsidT32 rt) ∧
    decodeWord .t32 (word 0xEEE70A10#32) = .ok (.vmsrMvfr0T32 rt) ∧
    decodeWord .t32 (word 0xEEE60A10#32) = .ok (.vmsrMvfr1T32 rt) ∧
    decodeWord .t32 (word 0xEEE50A10#32) = .ok (.vmsrMvfr2T32 rt))

/-- VMRS and VMSR of FPINST and FPINST2 (A32 and T32) are refused in every state (R141). -/
def Obligations.FpinstAccessesAreRefused : Prop :=
  ∀ (cond rt : BitVec 4) (s : State),
  (∀ i ∈ [Instr.vmrsFpinstA32 cond rt, .vmsrFpinstA32 cond rt, .vmrsFpinst2A32 cond rt, .vmsrFpinst2A32 cond rt,
      .vmrsFpinstT32 rt, .vmsrFpinstT32 rt, .vmrsFpinst2T32 rt, .vmsrFpinst2T32 rt],
    exec i s = .refused .fpinstUnpredictable) ∧
  (cond ≠ 0b1111#4 → rt ≠ 15#4 →
    let word (base : Word) : Word := base ||| (cond.setWidth 32 <<< 28) ||| (rt.setWidth 32 <<< 12)
    decodeWord .a32 (word 0x0EF90A10#32) = .ok (.vmrsFpinstA32 cond rt) ∧
    decodeWord .a32 (word 0x0EE90A10#32) = .ok (.vmsrFpinstA32 cond rt) ∧
    decodeWord .a32 (word 0x0EFA0A10#32) = .ok (.vmrsFpinst2A32 cond rt) ∧
    decodeWord .a32 (word 0x0EEA0A10#32) = .ok (.vmsrFpinst2A32 cond rt)) ∧
  (rt ≠ 13#4 → rt ≠ 15#4 →
    let word (base : Word) : Word := base ||| (rt.setWidth 32 <<< 12)
    decodeWord .t32 (word 0xEEF90A10#32) = .ok (.vmrsFpinstT32 rt) ∧
    decodeWord .t32 (word 0xEEE90A10#32) = .ok (.vmsrFpinstT32 rt) ∧
    decodeWord .t32 (word 0xEEFA0A10#32) = .ok (.vmrsFpinst2T32 rt) ∧
    decodeWord .t32 (word 0xEEEA0A10#32) = .ok (.vmsrFpinst2T32 rt))

/-- An A32 access whose condition fails only advances the pc, whatever the access right (R130, R131, R187, D22). -/
def Obligations.FailedConditionMakesAnA32AccessANoOp : Prop :=
  ∀ (cond rt : BitVec 4) (s : State), s.ctx.isa = .a32 → cond ≠ 0b1111#4 → rt ≠ 15#4 →
  conditionPassed s 0b1110#4 = true ∧
  (conditionPassed s cond = false →
    ∀ i ∈ [Instr.vmrsFpsidA32 cond rt, .vmrsFpscrA32 cond rt, .vmrsApsrFpscrA32 cond, .vmrsMvfr0A32 cond rt,
      .vmrsMvfr1A32 cond rt, .vmrsMvfr2A32 cond rt, .vmrsFpexcA32 cond rt, .vmsrFpscrA32 cond rt, .vmsrFpexcA32 cond rt],
    ∃ t, exec i s = .next t ∧ OnlyPcAdvanced s t)

/-- An instruction faults exactly where its own access is reached and has no right; the fault records its register, access and context (R60, R183, R186, R187, R130, R131). -/
def Obligations.FaultsAreExactlyDeniedAccesses : Prop :=
  ∀ (i : Instr) (s : State) (r : Fault), exec i s = .fault r ↔
  ∃ (reg : SysReg) (access : Access), accessOf i = some (reg, access) ∧ i.wf = true ∧ i.isa = s.ctx.isa ∧
    conditionPassed s (condOf i) = true ∧ rightOf s reg = .none ∧ r = .undefinedInstruction reg access s.ctx

/-- A well-formed instruction of the context's set is refused only where the spec refuses it: broken reserved bits only under P_RES_WRITE = refuse (R9, R98, R111, R122, R131, R141, R142, D11). -/
def Obligations.OnlyTheSpecsRefusalsAreRefused : Prop :=
  ∀ (i : Instr) (s : State) (r : Refusal), i.wf = true → i.isa = s.ctx.isa → exec i s = .refused r →
  refusedBySpec i = true ∨
    (s.platform.resWrite = .refuse ∧ ¬ KeepsReserved s i ∧
      ∃ reg, accessOf i = some (reg, .write) ∧ r = .reservedFieldWritten reg)

/-- No instruction changes the context, the program text, the bank, the open parameters, or PSTATE (for VMRS APSR_nzcv the model's choice, log 19) (R21, R24, R70, R80, R110, R111, R131, R140). -/
def Obligations.NoInstructionTouchesContextMemoryOrBank : Prop :=
  ∀ (i : Instr) (s t : State), exec i s = .next t →
  t.ctx = s.ctx ∧ t.mem = s.mem ∧ (∀ a, t.mem.read a = s.mem.read a) ∧ t.bank = s.bank ∧ t.pstate = s.pstate ∧
    t.platform = s.platform

/-- Every instruction that completes leaves pc + 4 (R23, R172, R143). -/
def Obligations.CompletedInstructionsAdvanceThePcByFour : Prop :=
  ∀ (i : Instr) (s t : State), exec i s = .next t →
  (s.ctx.isa = .a64 → s.pc.toNat + 4 < 2 ^ 64 → t.pc.toNat = s.pc.toNat + 4) ∧
  (s.ctx.isa ≠ .a64 → s.pc.toNat % 2 ^ 32 + 4 < 2 ^ 32 → t.pc.toNat = s.pc.toNat % 2 ^ 32 + 4) ∧
  (s.ctx.isa ≠ .a64 → t.pc.toNat < 2 ^ 32)

/-- Control fields change only by MSR FPCR and VMSR FPSCR, status fields only by MSR FPSR and VMSR FPSCR (R157, R59, R163, R164, R31). -/
def Obligations.OnlyRegisterWritesChangeTheFieldStore : Prop :=
  ∀ (i : Instr) (s t : State), exec i s = .next t →
  (writesControl i = false → t.f.control = s.f.control) ∧
  (writesStatus i = false → t.f.flags = s.f.flags ∧ t.f.qc = s.f.qc ∧ t.f.exc = s.f.exc) ∧
  (t.apsr ≠ s.apsr → i = .vmrsApsrFpscrT32 ∨ ∃ cond, i = .vmrsApsrFpscrA32 cond)

/-- EN changes only by MSR FPEXC32_EL2 at EL2 or EL3 and by VMSR FPEXC above EL0: no EL0 instruction and no EL0 step changes it (R196, R39, R51, R120, R139). -/
def Obligations.OnlyPrivilegedWritesChangeEn : Prop :=
  (∀ (i : Instr) (s t : State), exec i s = .next t → t.en ≠ s.en →
    ((∃ rt, i = .msrFpexc32El2 rt) ∧ (s.ctx.el = .el2 ∨ s.ctx.el = .el3)) ∨
    (((∃ cond rt, i = .vmsrFpexcA32 cond rt) ∨ ∃ rt, i = .vmsrFpexcT32 rt) ∧ s.ctx.el ≠ .el0)) ∧
  ∀ s t : State, s.ctx.el = .el0 → step s = .next t → t.en = s.en

/-- At EL0 only FPCR, FPSR and FPSCR can be accessed; every other one faults, is refused, or is an A32 access whose condition failed (R196, R60, R44, R110, R130). -/
def Obligations.El0ReachesOnlyItsOwnRegisters : Prop :=
  ∀ (i : Instr) (s t : State), s.ctx.el = .el0 → exec i s = .next t →
  (∃ rt, i ∈ [Instr.mrsFpcr rt, .msrFpcr rt, .mrsFpsr rt, .msrFpsr rt]) ∨
  (∃ cond rt, i ∈ [Instr.vmrsFpscrA32 cond rt, .vmsrFpscrA32 cond rt, .vmrsApsrFpscrA32 cond, .vmrsFpscrT32 rt,
    .vmsrFpscrT32 rt, .vmrsApsrFpscrT32]) ∨
  (i.isa = .a32 ∧ conditionPassed s (condOf i) = false ∧ OnlyPcAdvanced s t)

/-- In AArch64 EN changes only what FPEXC32_EL2 reads; FPEXC32_EL2 and FPEXC are one bit (reserved bits dropped as `ignore` does, log 2) (R40, R38, R50, R111, R131, D3). -/
def Obligations.EnHasNoEffectInAArch64 : Prop :=
  (∀ (i : Instr) (s : State) (b : Bool), s.ctx.isa = .a64 → readsEn64 i = false →
    match exec i s, exec i { s with en := b } with
    | .next t, .next u => u = { t with en := u.en } ∧ (writesEn i = true → u.en = t.en)
    | .fault r, .fault r' => r = r'
    | .refused r, .refused r' => r = r'
    | _, _ => False) ∧
  (∀ (rt : BitVec 5) (s : State) (b : Bool), s.ctx.isa = .a64 →
    match exec (.mrsFpexc32El2 rt) s, exec (.mrsFpexc32El2 rt) { s with en := b } with
    | .next t, .next u => u = { t with x := u.x, en := b } ∧ t.en = s.en ∧
        ∀ k : Nat, k ≠ rt.toNat → u.x[k]? = t.x[k]?
    | .fault r, .fault r' => r = r'
    | .refused r, .refused r' => r = r'
    | _, _ => False) ∧
  (∀ (s : State) (v : Word), view32 (writeFields64 v s .fpexc32El2) .fpexc = (v &&& 0x40000000#32) ||| 0x700#32) ∧
  (∀ (s : State) (v : Word),
    view64 (writeFields32 v s .fpexc) .fpexc32El2 = ((v &&& 0x40000000#32) ||| 0x700#32).setWidth 64) ∧
  (∀ s : State, view64 s .fpexc32El2 = (view32 s .fpexc).setWidth 64)

/-- With EN = 0 and an AArch32 EL1, FPSCR and MVFR accesses fault; under an AArch64 EL1, EN is ignored (R52, R167, D23). -/
def Obligations.EnDisablesAArch32AccessesUnlessEl1IsAArch64 : Prop :=
  (∀ (cond rt : BitVec 4) (s : State), RunsA32 s cond rt → s.en = false → s.platform.elState.el1 = .aarch32 →
    ∀ i ∈ [Instr.vmrsFpscrA32 cond rt, .vmsrFpscrA32 cond rt, .vmrsApsrFpscrA32 cond, .vmrsMvfr0A32 cond rt,
      .vmrsMvfr1A32 cond rt, .vmrsMvfr2A32 cond rt], ∃ r, exec i s = .fault r) ∧
  (∀ (rt : BitVec 4) (s : State), RunsT32 s rt → s.en = false → s.platform.elState.el1 = .aarch32 →
    ∀ i ∈ [Instr.vmrsFpscrT32 rt, .vmsrFpscrT32 rt, .vmrsApsrFpscrT32, .vmrsMvfr0T32 rt, .vmrsMvfr1T32 rt,
      .vmrsMvfr2T32 rt], ∃ r, exec i s = .fault r) ∧
  (∀ (s : State) (b : Bool) (reg : SysReg32), s.platform.elState.el1 = .aarch64 →
    acc32 reg { s with en := b } = acc32 reg s)

/-- VMSR FPEXC with bit 30 set opens FPSCR for the very next VMRS FPSCR, with no context synchronisation (R77, D15, log 12) (R214, R139, R133, R77, R220, D15). -/
def Obligations.EnablingSequenceOpensFpscr : Prop :=
  ∀ (cond rt rt2 : BitVec 4) (s : State) (v : Word), s.ctx.el ≠ .el0 → Granted32 .fpexc s → Granted32 .fpscr s →
  s.r[rt.toNat]? = some v → v.getLsbD 30 = true → WriteAccepted s v 0xBFFFF8FF#32 0x700#32 →
  (RunsA32 s cond rt → rt2 ≠ 15#4 →
    ∃ t u, exec (.vmsrFpexcA32 cond rt) s = .next t ∧ t.en = true ∧
      exec (.vmrsFpscrA32 cond rt2) t = .next u ∧ OnlyRWritten t u rt2 (fpscrView s.f)) ∧
  (RunsT32 s rt → rt2 ≠ 13#4 → rt2 ≠ 15#4 →
    ∃ t u, exec (.vmsrFpexcT32 rt) s = .next t ∧ t.en = true ∧
      exec (.vmrsFpscrT32 rt2) t = .next u ∧ OnlyRWritten t u rt2 (fpscrView s.f))

/-- A value written to FPCR, FPSR or FPEXC32_EL2 is what the next MRS reads, reserved bits dropped where P_RES_WRITE = ignore (log 2) (R77, R222, R111, R110, D3). -/
def Obligations.AWriteIsSeenByTheNextInstruction : Prop :=
  ∀ (rt rt2 : BitVec 5) (s : State) (v : DWord), s.ctx.isa = .a64 → a64FpAccessEnabled s = true → XHolds s rt v →
  (WriteAccepted s v 0xFFFFFFFFF83FFFFF#64 0#64 → ∃ t u, exec (.msrFpcr rt) s = .next t ∧
    exec (.mrsFpcr rt2) t = .next u ∧ OnlyXWritten t u rt2 (v &&& 0x07C00000#64)) ∧
  (WriteAccepted s v 0xFFFFFFFF07FFFF60#64 0#64 → ∃ t u, exec (.msrFpsr rt) s = .next t ∧
    exec (.mrsFpsr rt2) t = .next u ∧ OnlyXWritten t u rt2 (v &&& 0xF800009F#64)) ∧
  (s.ctx.el = .el2 ∨ s.ctx.el = .el3 → WriteAccepted s v 0xFFFFFFFFBFFFF8FF#64 0x700#64 →
    ∃ t u, exec (.msrFpexc32El2 rt) s = .next t ∧
    exec (.mrsFpexc32El2 rt2) t = .next u ∧ OnlyXWritten t u rt2 ((v &&& 0x40000000#64) ||| 0x700#64))

/-- A FPSCR value written in AArch32 is what FPCR and FPSR read in AArch64, reserved bits dropped where P_RES_WRITE = ignore (log 2) (R45, R222, R197, R131, D3). -/
def Obligations.FpscrWrittenInAArch32IsReadInAArch64 : Prop :=
  ∀ (cond rt : BitVec 4) (s : State) (v : Word), Granted32 .fpscr s → EnabledByEn s →
  s.r[rt.toNat]? = some v → WriteAccepted s v 0x003FFF60#32 0#32 →
  let readsBoth (t : State) : Prop := ∀ (ctx : Ctx) (rt2 : BitVec 5), ctx.isa = .a64 →
    a64FpAccessEnabled (t.withCtx ctx) = true →
      (∃ u, exec (.mrsFpcr rt2) (t.withCtx ctx) = .next u ∧
        OnlyXWritten (t.withCtx ctx) u rt2 ((v &&& 0x07C00000#32).setWidth 64)) ∧
      (∃ u, exec (.mrsFpsr rt2) (t.withCtx ctx) = .next u ∧
        OnlyXWritten (t.withCtx ctx) u rt2 ((v &&& 0xF800009F#32).setWidth 64))
  (RunsA32 s cond rt → ∃ t, exec (.vmsrFpscrA32 cond rt) s = .next t ∧ readsBoth t) ∧
  (RunsT32 s rt → ∃ t, exec (.vmsrFpscrT32 rt) s = .next t ∧ readsBoth t)

/-- Where the bytes at the program counter are a well-formed instruction of the context's set, step is exec of it (R101, R23, R90). -/
def Obligations.AStepRunsTheDecodedInstruction : Prop :=
  ∀ (i : Instr) (s : State), i.wf = true → s.ctx.isa = i.isa → s.fetchAddr % fetchAlignment i.isa = 0 →
  s.mem.readBytes (2 ^ pcWidth i.isa) s.fetchAddr 4 = some (encodeBytes i) → step s = exec i s

/-- withFetchWord, the model's own loader (log 5, DESIGN CHOICE), puts an instruction exactly where the next step fetches (R101, R23, R72, R95). -/
def Obligations.ThePlacedWordIsTheNextInstruction : Prop :=
  ∀ (s : State) (w : Nat) (i : Instr), decodeTableWord 32 w = some i →
  step (s.withFetchWord 32 w) = exec i (s.withFetchWord 32 w)

/-- A misaligned pc is refused, a fetch outside the loaded program is stuck, a word not in the spec is refused by name (R73, R23, R101). -/
def Obligations.FetchStopsWhereNoInstructionIs : Prop :=
  (∀ s : State, s.fetchAddr % fetchAlignment s.ctx.isa ≠ 0 → step s = .refused .pcMisaligned) ∧
  (∀ (s : State) (k : Nat), s.fetchAddr % fetchAlignment s.ctx.isa = 0 → k < 4 → s.mem.read (s.fetchAddr + k) = none →
    step s = .fault (.fetchOutsideProgram s.pc)) ∧
  (∀ (s : State) (bytes : List Byte) (e : DecodeRefusal), fetch s = .next bytes →
    decodeBytes s.ctx.isa bytes = .error e → step s = .refused (refusalOfDecode e))

/-- Every step keeps the program text canonical and unchanged, the context allowed and the AArch32 pc within 32 bits (R80, R21, R14, R23). -/
def Obligations.EveryStepKeepsTheInvariant : Prop :=
  ∀ s t : State, s.Inv → step s = .next t → t.Inv ∧ t.mem = s.mem ∧ t.ctx = s.ctx

/-- The state after reset, in the context and platform the model names for it (logs 7 and 8), meets the invariant (R211, R57, D20). -/
def Obligations.ResetMeetsTheRunConditions : Prop :=
  State.reset.Inv

/-- AArch32 Advanced SIMD arithmetic runs with DN = 1, FZ = 1, RMode = 0b00, whatever the control bits; all else uses the bits (R161; logs 11, 20) (R158, R159, R160, R161). -/
def Obligations.AArch32AdvancedSimdIgnoresTheControls : Prop :=
  (∀ c : FpControl, (effectiveControl .aarch32 .advSimd c).dn = true ∧ (effectiveControl .aarch32 .advSimd c).fz = true ∧
    (effectiveControl .aarch32 .advSimd c).rmode.bits = 0b00#2 ∧ (effectiveControl .aarch32 .advSimd c).ahp = c.ahp) ∧
  (∀ c : FpControl, effectiveControl .aarch32 .scalar c = c ∧ effectiveControl .aarch64 .scalar c = c ∧
    effectiveControl .aarch64 .advSimd c = c) ∧
  ∀ (op : FpOperation) (s t : State) (result : List DWord), fpOperation op s = .next (result, t) →
    fpAnswer op s = Config.fpNumerics op (fpControl op s) s.ctx.isa.execState ∧
    (s.ctx.isa ≠ .a64 → op.cls = .advSimd →
      (fpControl op s).dn = true ∧ (fpControl op s).fz = true ∧ (fpControl op s).rmode.bits = 0b00#2) ∧
    t.f.control = s.f.control

/-- A comparison sets NZCV by R162's table, unordered with a NaN and only then: FPSCR's in AArch32, PSTATE's in AArch64 (the spec's gloss, logs 11, 19) (R162, R168). -/
def Obligations.ComparisonsSetTheFlagsOfTheTable : Prop :=
  Comparison.lessThan.flags.bits = 0b1000#4 ∧ Comparison.equal.flags.bits = 0b0110#4 ∧
  Comparison.greaterThan.flags.bits = 0b0010#4 ∧ Comparison.unordered.flags.bits = 0b0011#4 ∧
  (∀ (s : State) (c : Comparison), s.ctx.isa ≠ .a64 →
    s.writeComparison c = { s with f := { s.f with flags := c.flags } }) ∧
  (∀ (s : State) (c : Comparison), s.ctx.isa = .a64 → s.writeComparison c = { s with pstate := c.flags }) ∧
  (∀ (op : FpOperation) (s : State), fpComparison op s ≠ none ↔ op.compares = true) ∧
  (∀ (op : FpOperation) (s : State) (src : FpArithFormat) (dst : Option FpArithFormat), op.compares = true →
    op.kind = .floatingPoint (some src) dst →
    (fpComparison op s = some .unordered ↔
      ∃ operands ∈ op.elements, ∃ x ∈ operands, (FpFormat.arith src).isNaN x = true)) ∧
  ∀ (op : FpOperation) (s : State) (c : Comparison), dataProcessingEnabled s = true → fpComparison op s = some c →
    ∃ (result : List DWord) (t : State), fpOperation op s = .next (result, t) ∧
      (s.ctx.isa ≠ .a64 → t.f.flags = c.flags ∧ t.pstate = s.pstate) ∧
      (s.ctx.isa = .a64 → t.pstate = c.flags ∧ t.f.flags = s.f.flags)

/-- An enabled operation completes, sets the cumulative bits it raises and clears none; by log 11 (DESIGN CHOICE) it leaves pc, registers and bank alone (R152, R157, R163, R164, R165). -/
def Obligations.OperationsAccumulateAndNeverTrap : Prop :=
  ∀ (op : FpOperation) (s : State), dataProcessingEnabled s = true →
  ∃ (result : List DWord) (t : State), fpOperation op s = .next (result, t) ∧
    t = { s with f := t.f, pstate := t.pstate } ∧ t.f.control = s.f.control ∧
    (let raised := fpRaised op s
     t.f.exc = ⟨s.f.exc.idc || raised.idc, s.f.exc.ixc || raised.ixc, s.f.exc.ufc || raised.ufc,
       s.f.exc.ofc || raised.ofc, s.f.exc.dzc || raised.dzc, s.f.exc.ioc || raised.ioc⟩) ∧
    t.f.qc = (s.f.qc || fpSaturated op s) ∧ (op.kind ≠ .integer → t.f.qc = s.f.qc) ∧ (op.kind = .integer → t.f.exc = s.f.exc) ∧
    (fpComparison op s = none → t.f.flags = s.f.flags ∧ t.pstate = s.pstate)

/-- FPSCR.Len and FPSCR.Stride always read 0, so no operation is a short-vector one (R166, R43, R134). -/
def Obligations.ShortVectorsCannotBeSelected : Prop :=
  ∀ (s : State) (v : Word), shortVectorSelected s = false ∧ shortVectorSelected (writeFields32 v s .fpscr) = false

/-- With EN = 0 and an AArch32 EL1 every operation of the class faults in AArch32; in AArch64 EN is ignored (enables: log 11) (R167, R183, R196). -/
def Obligations.ADisabledClassFaults : Prop :=
  (∀ (op : FpOperation) (s : State), s.ctx.isa ≠ .a64 → s.en = false → s.platform.elState.el1 = .aarch32 →
    fpOperation op s = .fault (.undefinedDataProcessing s.ctx)) ∧
  (∀ (s : State) (b : Bool), s.ctx.isa = .a64 → dataProcessingEnabled { s with en := b } = dataProcessingEnabled s) ∧
  (∀ (s : State) (b : Bool), s.ctx.isa ≠ .a64 → s.platform.elState.el1 = .aarch64 →
    dataProcessingEnabled { s with en := b } = dataProcessingEnabled s)

/-- AHP reaches only half-precision conversions, RMode no own rounding, DN, FZ and RMode no AArch32 Advanced SIMD (logs 11, 20) (R153, R156, R158, R159, R160). -/
def Obligations.ControlsReachOnlyTheOperationsTheyGovern : Prop :=
  ∀ (op : FpOperation) (s : State),
  let under (c : FpControl) : State := { s with f := { s.f with control := c } }
  (op.kind.convertsHalf = false → ∀ b : Bool, fpAnswer op (under { s.f.control with ahp := b }) = fpAnswer op s) ∧
  (op.ownRounding = true → ∀ m : RoundingMode, fpAnswer op (under { s.f.control with rmode := m }) = fpAnswer op s) ∧
  (s.ctx.isa ≠ .a64 → op.cls = .advSimd → ∀ (dn fz : Bool) (m : RoundingMode),
    fpAnswer op (under { s.f.control with dn := dn, fz := fz, rmode := m }) = fpAnswer op s)

/-- From NaN operands an operation returns the Default NaN with DN = 1, and with DN = 0 one of them propagated (logs 11, 20, 23: elements, open bits) (R154, R168, R169). -/
def Obligations.NaNOperandsReturnANaN : Prop :=
  ∀ (op : FpOperation) (s : State) (src dst : FpFormat) (k : Nat) (operands : List DWord) (x : DWord),
  dataProcessingEnabled s = true → op.kind.source s.f.control.ahp = some src →
  op.kind.result s.f.control.ahp = some dst → dst ≠ .altHalf → op.elements[k]? = some operands → x ∈ operands →
  src.isNaN x = true →
  ∃ (result : List DWord) (t : State) (y : DWord), fpOperation op s = .next (result, t) ∧ result[k]? = some y ∧
    dst.isNaN y = true ∧
    (s.f.control.dn = true ∨ (s.ctx.isa ≠ .a64 ∧ op.cls = .advSimd) → y = Config.defaultNaN.bits dst) ∧
    (s.f.control.dn = false → ¬ (s.ctx.isa ≠ .a64 ∧ op.cls = .advSimd) →
      ∃ z ∈ operands, src.isNaN z = true ∧ Propagates src dst z y)

/-- Sign, exponent and fraction stand where R168's table has them; the top exponent encodes infinities and NaNs but in alternative half (R168). -/
def Obligations.FormatsEncodeNaNsAndInfinitiesAsTheTable : Prop :=
  ∀ x : DWord,
  (FpFormat.half.isNaN x = true ↔ x.extractLsb' 10 5 = 0b11111#5 ∧ x.extractLsb' 0 10 ≠ 0#10) ∧
  ((FpFormat.arith .single).isNaN x = true ↔ x.extractLsb' 23 8 = 0b11111111#8 ∧ x.extractLsb' 0 23 ≠ 0#23) ∧
  ((FpFormat.arith .double).isNaN x = true ↔ x.extractLsb' 52 11 = 0b11111111111#11 ∧ x.extractLsb' 0 52 ≠ 0#52) ∧
  (FpFormat.half.value x = .infinity (x.getLsbD 15) ↔ x.extractLsb' 10 5 = 0b11111#5 ∧ x.extractLsb' 0 10 = 0#10) ∧
  ((FpFormat.arith .single).value x = .infinity (x.getLsbD 31) ↔
    x.extractLsb' 23 8 = 0b11111111#8 ∧ x.extractLsb' 0 23 = 0#23) ∧
  ((FpFormat.arith .double).value x = .infinity (x.getLsbD 63) ↔
    x.extractLsb' 52 11 = 0b11111111111#11 ∧ x.extractLsb' 0 52 = 0#52) ∧
  ∃ (significand : Nat) (power : Int), FpFormat.altHalf.value x = .finite (x.getLsbD 15) significand power ∧
    significand < 2 ^ 11 ∧ -24 ≤ power ∧ power ≤ 6

/-- A comparison with a NaN operand sets NZCV to 0011: FPSCR's in AArch32, PSTATE's in AArch64 (the spec's gloss, log 11) (R162, R168). -/
def Obligations.AComparisonWithANaNIsUnordered : Prop :=
  ∀ (op : FpOperation) (s : State) (src : FpArithFormat) (dst : Option FpArithFormat) (operands : List DWord) (x : DWord),
  dataProcessingEnabled s = true → op.compares = true → op.kind = .floatingPoint (some src) dst →
  operands ∈ op.elements → x ∈ operands → (FpFormat.arith src).isNaN x = true →
  ∃ (result : List DWord) (t : State), fpOperation op s = .next (result, t) ∧
    (s.ctx.isa ≠ .a64 → t.f.flags = ⟨false, false, true, true⟩ ∧ t.pstate = s.pstate) ∧
    (s.ctx.isa = .a64 → t.pstate = ⟨false, false, true, true⟩ ∧ t.f.flags = s.f.flags)
end

