-- ==== Sys2Proof/Laws/State.lean ====
section
/-! SUPPORT. One lemma for each field and each update of the state, so that no proof unfolds an update. -/

namespace Sys2Proof.Machine

/-! `State.writeX`. -/

@[simp] theorem State.writeX_ctx (s : State) (t : BitVec 5) (v : DWord) : (s.writeX t v).ctx = s.ctx := by
  unfold State.writeX; split <;> rfl
@[simp] theorem State.writeX_pc (s : State) (t : BitVec 5) (v : DWord) : (s.writeX t v).pc = s.pc := by
  unfold State.writeX; split <;> rfl
@[simp] theorem State.writeX_r (s : State) (t : BitVec 5) (v : DWord) : (s.writeX t v).r = s.r := by
  unfold State.writeX; split <;> rfl
@[simp] theorem State.writeX_apsr (s : State) (t : BitVec 5) (v : DWord) : (s.writeX t v).apsr = s.apsr := by
  unfold State.writeX; split <;> rfl
@[simp] theorem State.writeX_pstate (s : State) (t : BitVec 5) (v : DWord) : (s.writeX t v).pstate = s.pstate := by
  unfold State.writeX; split <;> rfl
@[simp] theorem State.writeX_bank (s : State) (t : BitVec 5) (v : DWord) : (s.writeX t v).bank = s.bank := by
  unfold State.writeX; split <;> rfl
@[simp] theorem State.writeX_f (s : State) (t : BitVec 5) (v : DWord) : (s.writeX t v).f = s.f := by
  unfold State.writeX; split <;> rfl
@[simp] theorem State.writeX_en (s : State) (t : BitVec 5) (v : DWord) : (s.writeX t v).en = s.en := by
  unfold State.writeX; split <;> rfl
@[simp] theorem State.writeX_platform (s : State) (t : BitVec 5) (v : DWord) :
    (s.writeX t v).platform = s.platform := by
  unfold State.writeX; split <;> rfl
@[simp] theorem State.writeX_mem (s : State) (t : BitVec 5) (v : DWord) : (s.writeX t v).mem = s.mem := by
  unfold State.writeX; split <;> rfl

/-- Register 31 is XZR: a write to it changes nothing (R14). -/
@[simp] theorem State.writeX_xzr (s : State) (v : DWord) : s.writeX 31#5 v = s := by
  unfold State.writeX; rw [dif_neg (by decide)]

/-- XZR reads as 0 (R14). -/
@[simp] theorem State.readX_xzr (s : State) : s.readX 31#5 = 0#64 := by
  unfold State.readX; rw [dif_neg (by decide)]

/-- A write to Xt, read by register number. -/
theorem State.writeX_getElem? (s : State) (t : BitVec 5) (v : DWord) (k : Nat) (hk : k < 31) :
    (s.writeX t v).x[k]? = if k = t.toNat then some v else s.x[k]? := by
  unfold State.writeX
  split
  · simp only [Vector.getElem?_set, eq_comm]
  · split
    · omega
    · rfl

/-- A write to Xt changes no field but `x`. -/
theorem State.writeX_eq (s : State) (t : BitVec 5) (v : DWord) :
    s.writeX t v = { s with x := (s.writeX t v).x } := by
  unfold State.writeX; split <;> rfl

/-- Xt, t in 0..30, reads as the register file's entry. -/
theorem State.readX_of_getElem? {s : State} {t : BitVec 5} {v : DWord} (h : s.x[t.toNat]? = some v) :
    s.readX t = v := by
  obtain ⟨ht, rfl⟩ := Vector.getElem?_eq_some_iff.mp h
  unfold State.readX; rw [dif_pos ht]

/-! `State.writeR`. -/

@[simp] theorem State.writeR_ctx (s : State) (t : BitVec 4) (v : Word) : (s.writeR t v).ctx = s.ctx := by
  unfold State.writeR; split <;> rfl
@[simp] theorem State.writeR_pc (s : State) (t : BitVec 4) (v : Word) : (s.writeR t v).pc = s.pc := by
  unfold State.writeR; split <;> rfl
@[simp] theorem State.writeR_x (s : State) (t : BitVec 4) (v : Word) : (s.writeR t v).x = s.x := by
  unfold State.writeR; split <;> rfl
@[simp] theorem State.writeR_apsr (s : State) (t : BitVec 4) (v : Word) : (s.writeR t v).apsr = s.apsr := by
  unfold State.writeR; split <;> rfl
@[simp] theorem State.writeR_pstate (s : State) (t : BitVec 4) (v : Word) : (s.writeR t v).pstate = s.pstate := by
  unfold State.writeR; split <;> rfl
@[simp] theorem State.writeR_bank (s : State) (t : BitVec 4) (v : Word) : (s.writeR t v).bank = s.bank := by
  unfold State.writeR; split <;> rfl
@[simp] theorem State.writeR_f (s : State) (t : BitVec 4) (v : Word) : (s.writeR t v).f = s.f := by
  unfold State.writeR; split <;> rfl
@[simp] theorem State.writeR_en (s : State) (t : BitVec 4) (v : Word) : (s.writeR t v).en = s.en := by
  unfold State.writeR; split <;> rfl
@[simp] theorem State.writeR_platform (s : State) (t : BitVec 4) (v : Word) :
    (s.writeR t v).platform = s.platform := by
  unfold State.writeR; split <;> rfl
@[simp] theorem State.writeR_mem (s : State) (t : BitVec 4) (v : Word) : (s.writeR t v).mem = s.mem := by
  unfold State.writeR; split <;> rfl

/-- A write to Rt, read by register number. -/
theorem State.writeR_getElem? (s : State) (t : BitVec 4) (v : Word) (k : Nat) (hk : k < 15) :
    (s.writeR t v).r[k]? = if k = t.toNat then some v else s.r[k]? := by
  unfold State.writeR
  split
  · simp only [Vector.getElem?_set, eq_comm]
  · split
    · omega
    · rfl

/-- A write to Rt changes no field but `r`. -/
theorem State.writeR_eq (s : State) (t : BitVec 4) (v : Word) :
    s.writeR t v = { s with r := (s.writeR t v).r } := by
  unfold State.writeR; split <;> rfl

/-- Rt, t in 0..14, reads as the register file's entry. -/
theorem State.readR_of_getElem? {s : State} {t : BitVec 4} {v : Word} (h : s.r[t.toNat]? = some v) :
    s.readR t = v := by
  obtain ⟨ht, rfl⟩ := Vector.getElem?_eq_some_iff.mp h
  unfold State.readR; rw [dif_pos ht]

/-! `State.advance`. -/

@[simp] theorem State.advance_ctx (s : State) : s.advance.ctx = s.ctx := rfl
@[simp] theorem State.advance_pc (s : State) : s.advance.pc = nextPc s.ctx.isa s.pc := rfl
@[simp] theorem State.advance_x (s : State) : s.advance.x = s.x := rfl
@[simp] theorem State.advance_r (s : State) : s.advance.r = s.r := rfl
@[simp] theorem State.advance_apsr (s : State) : s.advance.apsr = s.apsr := rfl
@[simp] theorem State.advance_pstate (s : State) : s.advance.pstate = s.pstate := rfl
@[simp] theorem State.advance_bank (s : State) : s.advance.bank = s.bank := rfl
@[simp] theorem State.advance_f (s : State) : s.advance.f = s.f := rfl
@[simp] theorem State.advance_en (s : State) : s.advance.en = s.en := rfl
@[simp] theorem State.advance_platform (s : State) : s.advance.platform = s.platform := rfl
@[simp] theorem State.advance_mem (s : State) : s.advance.mem = s.mem := rfl

/-! `State.withCtx`: an event outside the model changes the context alone. -/

@[simp] theorem State.withCtx_ctx (s : State) (c : Ctx) : (s.withCtx c).ctx = c := rfl
@[simp] theorem State.withCtx_pc (s : State) (c : Ctx) : (s.withCtx c).pc = s.pc := rfl
@[simp] theorem State.withCtx_x (s : State) (c : Ctx) : (s.withCtx c).x = s.x := rfl
@[simp] theorem State.withCtx_r (s : State) (c : Ctx) : (s.withCtx c).r = s.r := rfl
@[simp] theorem State.withCtx_apsr (s : State) (c : Ctx) : (s.withCtx c).apsr = s.apsr := rfl
@[simp] theorem State.withCtx_pstate (s : State) (c : Ctx) : (s.withCtx c).pstate = s.pstate := rfl
@[simp] theorem State.withCtx_bank (s : State) (c : Ctx) : (s.withCtx c).bank = s.bank := rfl
@[simp] theorem State.withCtx_f (s : State) (c : Ctx) : (s.withCtx c).f = s.f := rfl
@[simp] theorem State.withCtx_en (s : State) (c : Ctx) : (s.withCtx c).en = s.en := rfl
@[simp] theorem State.withCtx_platform (s : State) (c : Ctx) : (s.withCtx c).platform = s.platform := rfl
@[simp] theorem State.withCtx_mem (s : State) (c : Ctx) : (s.withCtx c).mem = s.mem := rfl

/-! `writeFields64` and `writeFields32`: only the field store or EN. -/

@[simp] theorem writeFields64_ctx (w : Word) (s : State) (reg : SysReg64) : (writeFields64 w s reg).ctx = s.ctx := by
  cases reg <;> rfl
@[simp] theorem writeFields64_pc (w : Word) (s : State) (reg : SysReg64) : (writeFields64 w s reg).pc = s.pc := by
  cases reg <;> rfl
@[simp] theorem writeFields64_x (w : Word) (s : State) (reg : SysReg64) : (writeFields64 w s reg).x = s.x := by
  cases reg <;> rfl
@[simp] theorem writeFields64_r (w : Word) (s : State) (reg : SysReg64) : (writeFields64 w s reg).r = s.r := by
  cases reg <;> rfl
@[simp] theorem writeFields64_apsr (w : Word) (s : State) (reg : SysReg64) : (writeFields64 w s reg).apsr = s.apsr := by
  cases reg <;> rfl
@[simp] theorem writeFields64_pstate (w : Word) (s : State) (reg : SysReg64) :
    (writeFields64 w s reg).pstate = s.pstate := by
  cases reg <;> rfl
@[simp] theorem writeFields64_bank (w : Word) (s : State) (reg : SysReg64) : (writeFields64 w s reg).bank = s.bank := by
  cases reg <;> rfl
@[simp] theorem writeFields64_platform (w : Word) (s : State) (reg : SysReg64) :
    (writeFields64 w s reg).platform = s.platform := by
  cases reg <;> rfl
@[simp] theorem writeFields64_mem (w : Word) (s : State) (reg : SysReg64) : (writeFields64 w s reg).mem = s.mem := by
  cases reg <;> rfl

@[simp] theorem writeFields32_ctx (w : Word) (s : State) (reg : SysReg32) : (writeFields32 w s reg).ctx = s.ctx := by
  cases reg <;> rfl
@[simp] theorem writeFields32_pc (w : Word) (s : State) (reg : SysReg32) : (writeFields32 w s reg).pc = s.pc := by
  cases reg <;> rfl
@[simp] theorem writeFields32_x (w : Word) (s : State) (reg : SysReg32) : (writeFields32 w s reg).x = s.x := by
  cases reg <;> rfl
@[simp] theorem writeFields32_r (w : Word) (s : State) (reg : SysReg32) : (writeFields32 w s reg).r = s.r := by
  cases reg <;> rfl
@[simp] theorem writeFields32_apsr (w : Word) (s : State) (reg : SysReg32) : (writeFields32 w s reg).apsr = s.apsr := by
  cases reg <;> rfl
@[simp] theorem writeFields32_pstate (w : Word) (s : State) (reg : SysReg32) :
    (writeFields32 w s reg).pstate = s.pstate := by
  cases reg <;> rfl
@[simp] theorem writeFields32_bank (w : Word) (s : State) (reg : SysReg32) : (writeFields32 w s reg).bank = s.bank := by
  cases reg <;> rfl
@[simp] theorem writeFields32_platform (w : Word) (s : State) (reg : SysReg32) :
    (writeFields32 w s reg).platform = s.platform := by
  cases reg <;> rfl
@[simp] theorem writeFields32_mem (w : Word) (s : State) (reg : SysReg32) : (writeFields32 w s reg).mem = s.mem := by
  cases reg <;> rfl

/-! `writeFpcr`, `writeFpsr`, `writeFpscr`: the parts of the field store. -/

@[simp] theorem writeFpcr_control (w : Word) (f : FieldStore) : (writeFpcr w f).control = controlOfWord w := rfl
@[simp] theorem writeFpcr_flags (w : Word) (f : FieldStore) : (writeFpcr w f).flags = f.flags := rfl
@[simp] theorem writeFpcr_qc (w : Word) (f : FieldStore) : (writeFpcr w f).qc = f.qc := rfl
@[simp] theorem writeFpcr_exc (w : Word) (f : FieldStore) : (writeFpcr w f).exc = f.exc := rfl
@[simp] theorem writeFpsr_control (w : Word) (f : FieldStore) : (writeFpsr w f).control = f.control := rfl
@[simp] theorem writeFpsr_flags (w : Word) (f : FieldStore) : (writeFpsr w f).flags = flagsOfWord w := rfl
@[simp] theorem writeFpsr_qc (w : Word) (f : FieldStore) : (writeFpsr w f).qc = w.getLsbD 27 := rfl
@[simp] theorem writeFpsr_exc (w : Word) (f : FieldStore) : (writeFpsr w f).exc = exceptionsOfWord w := rfl
@[simp] theorem writeFpscr_control (w : Word) (f : FieldStore) : (writeFpscr w f).control = controlOfWord w := rfl
@[simp] theorem writeFpscr_flags (w : Word) (f : FieldStore) : (writeFpscr w f).flags = flagsOfWord w := rfl
@[simp] theorem writeFpscr_qc (w : Word) (f : FieldStore) : (writeFpscr w f).qc = w.getLsbD 27 := rfl
@[simp] theorem writeFpscr_exc (w : Word) (f : FieldStore) : (writeFpscr w f).exc = exceptionsOfWord w := rfl

/-! `State.writeComparison`: the flags alone. -/

@[simp] theorem State.writeComparison_ctx (s : State) (c : Comparison) : (s.writeComparison c).ctx = s.ctx := by
  unfold State.writeComparison; split <;> rfl
@[simp] theorem State.writeComparison_pc (s : State) (c : Comparison) : (s.writeComparison c).pc = s.pc := by
  unfold State.writeComparison; split <;> rfl
@[simp] theorem State.writeComparison_control (s : State) (c : Comparison) :
    (s.writeComparison c).f.control = s.f.control := by
  unfold State.writeComparison; split <;> rfl
@[simp] theorem State.writeComparison_exc (s : State) (c : Comparison) : (s.writeComparison c).f.exc = s.f.exc := by
  unfold State.writeComparison; split <;> rfl
@[simp] theorem State.writeComparison_qc (s : State) (c : Comparison) : (s.writeComparison c).f.qc = s.f.qc := by
  unfold State.writeComparison; split <;> rfl

end Sys2Proof.Machine
end

