-- ==== Sys2Proof/Laws/Memory.lean ====
section
/-! SUPPORT. The program text: a read after a write, and that every operation keeps the canonical form. -/

namespace Sys2Proof.Machine

/-- A read after a write to the same address gives the byte written. -/
@[simp] theorem Memory.read_write_same (m : Memory) (a : Nat) (v : Byte) : (m.write a v).read a = some v := by
  induction m with
  | nil => simp [Memory.write, Memory.read]
  | cons cell rest ih =>
    obtain ⟨k, b⟩ := cell
    simp only [Memory.write]
    split
    · simp [Memory.read]
    · split
      · simp [Memory.read]
      · simp only [Memory.read]
        rw [if_neg (by omega)]
        exact ih

/-- A write leaves every other address alone. -/
theorem Memory.read_write_other (m : Memory) {a c : Nat} (v : Byte) (h : c ≠ a) : (m.write a v).read c = m.read c := by
  induction m with
  | nil => simp [Memory.write, Memory.read, h.symm]
  | cons cell rest ih =>
    obtain ⟨k, b⟩ := cell
    simp only [Memory.write]
    split
    · simp [Memory.read, h.symm]
    · split
      · simp only [Memory.read]
        subst a
        rw [if_neg (Ne.symm h), if_neg (Ne.symm h)]
      · simp only [Memory.read, ih]

/-- A write of several bytes leaves every address below them alone. -/
theorem Memory.read_writeBytes_below (bs : List Byte) (m : Memory) {a c : Nat} (h : c < a) :
    (m.writeBytes a bs).read c = m.read c := by
  induction bs generalizing m a with
  | nil => rfl
  | cons b bs ih =>
    rw [Memory.writeBytes, ih _ (by omega), Memory.read_write_other _ _ (by omega)]

/-- Bytes placed below the limit read back. -/
theorem Memory.readBytes_writeBytes (bs : List Byte) (m : Memory) {limit a : Nat} (h : a + bs.length ≤ limit) :
    (m.writeBytes a bs).readBytes limit a bs.length = some bs := by
  induction bs generalizing m a with
  | nil => rfl
  | cons b bs ih =>
    simp only [List.length_cons] at h ⊢
    rw [Memory.writeBytes, Memory.readBytes, if_pos (by omega), Memory.read_writeBytes_below _ _ (by omega),
      Memory.read_write_same, ih _ (by omega)]

/-- A write at an address above `lo` keeps the rising order above `lo`. -/
theorem Memory.sortedAbove_write (m : Memory) {lo : Option Nat} {a : Nat} (v : Byte) (hlo : ∀ l, lo = some l → l < a)
    (h : m.sortedAbove lo = true) : (m.write a v).sortedAbove lo = true := by
  induction m generalizing lo with
  | nil => cases lo <;> simp [Memory.write, Memory.sortedAbove]; exact hlo _ rfl
  | cons cell rest ih =>
    obtain ⟨k, b⟩ := cell
    simp only [Memory.write]
    split
    · cases lo <;> simp_all [Memory.sortedAbove]
    · split
      · subst a
        cases lo <;> simp_all [Memory.sortedAbove]
      · have hk : k < a := by omega
        cases lo <;> simp_all [Memory.sortedAbove]

/-- A write lists no address but its own and those listed before. -/
theorem Memory.all_write (p : Host.Cell → Bool) (m : Memory) {a : Nat} {v : Byte} (hp : p (a, v) = true)
    (h : m.all p = true) : (m.write a v).all p = true := by
  induction m with
  | nil => simpa [Memory.write] using hp
  | cons cell rest ih =>
    obtain ⟨k, b⟩ := cell
    simp only [List.all_cons, Bool.and_eq_true] at h
    simp only [Memory.write]
    split
    · simp [hp, h.1, h.2]
    · split
      · simp [hp, h.2]
      · simp [h.1, ih h.2]

/-- A write of a byte at a 64-bit address keeps the canonical form. -/
theorem Memory.wf_write {m : Memory} {a : Nat} (v : Byte) (ha : a < 2 ^ 64) (h : m.wf = true) :
    (m.write a v).wf = true := by
  simp only [Memory.wf, Bool.and_eq_true] at h ⊢
  exact ⟨m.sortedAbove_write v (by simp) h.1, m.all_write _ (by simpa using ha) h.2⟩

/-- Placing bytes below the top of the address space keeps the canonical form. -/
theorem Memory.wf_writeBytes (bs : List Byte) {m : Memory} {a : Nat} (ha : a + bs.length ≤ 2 ^ 64) (h : m.wf = true) :
    (m.writeBytes a bs).wf = true := by
  induction bs generalizing m a with
  | nil => exact h
  | cons b bs ih =>
    simp only [List.length_cons] at ha
    exact ih (by omega) (Memory.wf_write b (by omega) h)

/-- The empty program text is in canonical form. -/
theorem Memory.wf_nil : Memory.wf [] = true := rfl

/-- The memory after reset is in canonical form. -/
theorem Memory.wf_reset : State.reset.mem.wf = true := rfl

end Sys2Proof.Machine
end

