-- ==== Sys2Proof/Laws/Ops.lean ====
section
/-! SUPPORT. What each shared operation can answer, said once: the provers cite these and unfold no operation. -/

namespace Sys2Proof.Machine

/-! `nextPc` (R23). -/

/-- A64, below the top of the address space. -/
theorem nextPc_a64 {pc : BitVec 64} (h : pc.toNat + 4 < 2 ^ 64) : nextPc .a64 pc = pc + 4#64 := by
  simp only [nextPc, if_pos h]

/-- AArch32, below the top of the 32-bit address space. -/
theorem nextPc_aarch32 {isa : Isa} {pc : BitVec 64} (hi : isa ≠ .a64) (h : pc.toNat % 2 ^ 32 + 4 < 2 ^ 32) :
    nextPc isa pc = (pc.setWidth 32 + 4#32).setWidth 64 := by
  cases isa
  · exact absurd rfl hi
  · simp only [nextPc, if_pos h]
  · simp only [nextPc, if_pos h]

/-- In AArch32 the program counter has 32 bits, free value or not. -/
theorem nextPc_lt_aarch32 {isa : Isa} (pc : BitVec 64) (hi : isa ≠ .a64) : (nextPc isa pc).toNat < 2 ^ 32 := by
  have key (b : BitVec 32) : (b.setWidth 64).toNat < 2 ^ 32 := by
    rw [BitVec.toNat_setWidth, Nat.mod_eq_of_lt (by omega)]; exact b.isLt
  cases isa
  · exact absurd rfl hi
  all_goals
    simp only [nextPc]
    split
    · exact key _
    · exact key _

/-! `P_RES_WRITE` (R12, D3). -/

/-- `ignore` refuses no write. -/
@[simp] theorem State.refusesWrite_ignore {s : State} (bad : Bool) (h : s.platform.resWrite = .ignore) :
    s.refusesWrite bad = false := by
  simp [State.refusesWrite, h]

/-- A value that keeps the reserved positions is refused under neither setting. -/
@[simp] theorem State.refusesWrite_false (s : State) : s.refusesWrite false = false := rfl

/-- A register write is refused exactly under `refuse`, for a value that breaks a reserved position. -/
theorem State.refusesWrite_iff (s : State) (bad : Bool) :
    s.refusesWrite bad = true ↔ bad = true ∧ s.platform.resWrite = .refuse := by
  simp [State.refusesWrite]

/-- `reservedBroken` is the failure of `ReservedKept` (R12). -/
theorem reservedBroken_eq_false_iff (reg : SysReg) (w : Word) :
    reservedBroken reg w = false ↔ ReservedKept w (res0Mask reg) (res1Mask reg) := by
  simp [reservedBroken, ReservedKept]

/-- What `P_RES_WRITE` says of an AArch32 write, in the terms of statements. -/
theorem State.refusesWrite32_eq_false_iff (s : State) (reg : SysReg) (w : Word) :
    s.refusesWrite (reservedBroken reg w) = false ↔ WriteAccepted s w (res0Mask reg) (res1Mask reg) := by
  have h := reservedBroken_eq_false_iff reg w
  unfold WriteAccepted
  rw [← h]
  cases hb : reservedBroken reg w <;> cases hr : s.platform.resWrite <;> simp [State.refusesWrite, hr]

/-- A masked doubleword, half by half. -/
theorem and_eq_iff_halves (v m b : DWord) :
    v &&& m = b ↔ v.extractLsb' 32 32 &&& m.extractLsb' 32 32 = b.extractLsb' 32 32 ∧
      v.setWidth 32 &&& m.setWidth 32 = b.setWidth 32 := by
  refine ⟨fun h => ?_, fun ⟨h1, h2⟩ => BitVec.eq_of_getLsbD_eq fun i hi => ?_⟩
  · subst h
    constructor <;> ext i hi <;> simp
  · by_cases h : i < 32
    · simpa [h] using congrArg (fun x => x.getLsbD i) h2
    · simpa [show 32 + (i - 32) = i by omega, show i - 32 < 32 by omega] using
        congrArg (fun x => x.getLsbD (i - 32)) h1

/-- The reserved positions of Xt: bits [63:32] and the register's own (R111, D11). -/
theorem badWrite64_eq_false_iff (reg : SysReg64) (v : DWord) :
    badWrite64 reg v = false ↔
      ReservedKept v (0xFFFFFFFF#32 ++ res0Mask (.a64 reg)) ((res1Mask (.a64 reg)).setWidth 64) := by
  have hff (h : Word) : h &&& 0xFFFFFFFF#32 = h := BitVec.and_allOnes
  unfold ReservedKept
  rw [and_eq_iff_halves, and_eq_iff_halves]
  cases reg <;> simp [badWrite64, reservedBroken, res0Mask, res1Mask, hff, and_assoc]

/-- What `P_RES_WRITE` says of an `MSR`, in the terms of statements. -/
theorem State.refusesWrite64_eq_false_iff (s : State) (reg : SysReg64) (v : DWord) :
    s.refusesWrite (badWrite64 reg v) = false ↔
      WriteAccepted s v (0xFFFFFFFF#32 ++ res0Mask (.a64 reg)) ((res1Mask (.a64 reg)).setWidth 64) := by
  have h := badWrite64_eq_false_iff reg v
  unfold WriteAccepted
  rw [← h]
  cases hb : badWrite64 reg v <;> cases hr : s.platform.resWrite <;> simp [State.refusesWrite, hr]

/-! The A64 accesses. -/

/-- Everything `MRS` can answer (R110). -/
theorem readSys64_cases (reg : SysReg64) (rt : BitVec 5) (s : State) :
    (s.ctx.isa ≠ .a64 ∧ readSys64 reg rt s = .refused .wrongInstructionSet) ∨
    (s.ctx.isa = .a64 ∧ acc64 reg s = .none ∧
      readSys64 reg rt s = .fault (.undefinedInstruction (.a64 reg) .read s.ctx)) ∨
    (s.ctx.isa = .a64 ∧ acc64 reg s ≠ .none ∧
      readSys64 reg rt s = .next (s.writeX rt (view64 s reg)).advance) := by
  by_cases hi : s.ctx.isa = .a64
  · cases ha : acc64 reg s <;> simp [readSys64, raiseUndefined, hi, ha]
  · simp [readSys64, hi]

/-- Everything `MSR` can answer (R111). -/
theorem writeSys64_cases (reg : SysReg64) (rt : BitVec 5) (s : State) :
    (s.ctx.isa ≠ .a64 ∧ writeSys64 reg rt s = .refused .wrongInstructionSet) ∨
    (s.ctx.isa = .a64 ∧ acc64 reg s = .none ∧
      writeSys64 reg rt s = .fault (.undefinedInstruction (.a64 reg) .write s.ctx)) ∨
    (s.ctx.isa = .a64 ∧ acc64 reg s = .ro ∧ writeSys64 reg rt s = .refused (.readOnlyRegister (.a64 reg))) ∨
    (s.ctx.isa = .a64 ∧ acc64 reg s = .rw ∧ s.refusesWrite (badWrite64 reg (s.readX rt)) = true ∧
      writeSys64 reg rt s = .refused (.reservedFieldWritten (.a64 reg))) ∨
    (s.ctx.isa = .a64 ∧ acc64 reg s = .rw ∧ s.refusesWrite (badWrite64 reg (s.readX rt)) = false ∧
      writeSys64 reg rt s = .next (writeFields64 ((s.readX rt).setWidth 32) s reg).advance) := by
  by_cases hi : s.ctx.isa = .a64
  · cases ha : acc64 reg s <;> cases hb : s.refusesWrite (badWrite64 reg (s.readX rt)) <;>
      simp [writeSys64, raiseUndefined, hi, ha, hb]
  · simp [writeSys64, hi]

/-- Where `MRS` completes. -/
theorem readSys64_next {reg : SysReg64} {s : State} (rt : BitVec 5) (hi : s.ctx.isa = .a64) (ha : acc64 reg s ≠ .none) :
    readSys64 reg rt s = .next (s.writeX rt (view64 s reg)).advance := by
  rcases readSys64_cases reg rt s with ⟨h, -⟩ | ⟨-, h, -⟩ | ⟨-, -, h⟩
  · exact absurd hi h
  · exact absurd h ha
  · exact h

/-- Where `MSR` completes. -/
theorem writeSys64_next {reg : SysReg64} {s : State} {rt : BitVec 5} (hi : s.ctx.isa = .a64) (ha : acc64 reg s = .rw)
    (hw : s.refusesWrite (badWrite64 reg (s.readX rt)) = false) :
    writeSys64 reg rt s = .next (writeFields64 ((s.readX rt).setWidth 32) s reg).advance := by
  simp [writeSys64, hi, ha, hw]

/-- Where `P_RES_WRITE` refuses an allowed `MSR`. -/
theorem writeSys64_refused {reg : SysReg64} {s : State} {rt : BitVec 5} (hi : s.ctx.isa = .a64) (ha : acc64 reg s = .rw)
    (hw : s.refusesWrite (badWrite64 reg (s.readX rt)) = true) :
    writeSys64 reg rt s = .refused (.reservedFieldWritten (.a64 reg)) := by
  simp [writeSys64, hi, ha, hw]

/-! The AArch32 accesses. -/

/-- Everything an AArch32 access can answer, in the order of R187. -/
theorem access32_cases (form : Form32) (ok : Bool) (reg : SysReg32) (access : Access) (s : State)
    (p : Host.Outcome State Fault Refusal) :
    (s.ctx.isa ≠ form.isa ∧ access32 form ok reg access s p = .refused .wrongInstructionSet) ∨
    (s.ctx.isa = form.isa ∧ (form.condAdmitted && ok) = false ∧
      access32 form ok reg access s p = .refused .operandNotPermitted) ∨
    (s.ctx.isa = form.isa ∧ (form.condAdmitted && ok) = true ∧ form.passes s = false ∧
      access32 form ok reg access s p = .next s.advance) ∨
    (s.ctx.isa = form.isa ∧ (form.condAdmitted && ok) = true ∧ form.passes s = true ∧ acc32 reg s = .none ∧
      access32 form ok reg access s p = .fault (.undefinedInstruction (.a32 reg) access s.ctx)) ∨
    (s.ctx.isa = form.isa ∧ (form.condAdmitted && ok) = true ∧ form.passes s = true ∧ acc32 reg s = .ro ∧
      access = .write ∧ access32 form ok reg access s p = .refused (.readOnlyRegister (.a32 reg))) ∨
    (s.ctx.isa = form.isa ∧ (form.condAdmitted && ok) = true ∧ form.passes s = true ∧ acc32 reg s ≠ .none ∧
      (acc32 reg s = .rw ∨ access = .read) ∧ access32 form ok reg access s p = p) := by
  by_cases hi : s.ctx.isa = form.isa
  · cases hok : (form.condAdmitted && ok)
    · simp [access32, hi, hok]
    · cases hp : form.passes s
      · simp [access32, hi, hok, hp]
      · cases ha : acc32 reg s <;> cases access <;> simp [access32, raiseUndefined, hi, hok, hp, ha]
  · simp [access32, hi]

/-- Where an AArch32 access is performed. -/
theorem access32_performed {form : Form32} {ok : Bool} {reg : SysReg32} {access : Access} {s : State}
    (p : Host.Outcome State Fault Refusal)
    (hi : s.ctx.isa = form.isa) (hok : (form.condAdmitted && ok) = true) (hp : form.passes s = true)
    (ha : acc32 reg s ≠ .none) (hw : acc32 reg s = .rw ∨ access = .read) :
    access32 form ok reg access s p = p := by
  rcases access32_cases form ok reg access s p with
    ⟨h, -⟩ | ⟨-, h, -⟩ | ⟨-, -, h, -⟩ | ⟨-, -, -, h, -⟩ | ⟨-, -, -, h, h', -⟩ | ⟨-, -, -, -, -, h⟩
  · exact absurd hi h
  · simp [hok] at h
  · simp [hp] at h
  · exact absurd h ha
  · rcases hw with hw | hw
    · simp [hw] at h
    · simp [hw] at h'
  · exact h

/-- Where an AArch32 access faults (R186). -/
theorem access32_fault {form : Form32} {ok : Bool} {reg : SysReg32} {access : Access} {s : State}
    (p : Host.Outcome State Fault Refusal)
    (hi : s.ctx.isa = form.isa) (hok : (form.condAdmitted && ok) = true) (hp : form.passes s = true)
    (ha : acc32 reg s = .none) :
    access32 form ok reg access s p = .fault (.undefinedInstruction (.a32 reg) access s.ctx) := by
  rcases access32_cases form ok reg access s p with
    ⟨h, -⟩ | ⟨-, h, -⟩ | ⟨-, -, h, -⟩ | ⟨-, -, -, -, h⟩ | ⟨-, -, -, h, -⟩ | ⟨-, -, -, h, -⟩
  · exact absurd hi h
  · simp [hok] at h
  · simp [hp] at h
  · exact h
  · simp [ha] at h
  · exact absurd ha h

/-- A failed condition makes an AArch32 access a no-op (R130, R131, R187). -/
theorem access32_condition_failed {form : Form32} {ok : Bool} (reg : SysReg32) (access : Access) {s : State}
    (p : Host.Outcome State Fault Refusal)
    (hi : s.ctx.isa = form.isa) (hok : (form.condAdmitted && ok) = true) (hp : form.passes s = false) :
    access32 form ok reg access s p = .next s.advance := by
  simp [access32, hi, hok, hp]

/-- What a performed `VMSR` answers (R131). -/
theorem writeSys32_performed {form : Form32} {reg : SysReg32} {rt : BitVec 4} {s : State} (hi : s.ctx.isa = form.isa)
    (hok : (form.condAdmitted && form.rtAdmitted rt) = true) (hp : form.passes s = true) (ha : acc32 reg s = .rw) :
    (s.refusesWrite (reservedBroken (.a32 reg) (s.readR rt)) = true ∧
      writeSys32 form reg rt s = .refused (.reservedFieldWritten (.a32 reg))) ∨
    (s.refusesWrite (reservedBroken (.a32 reg) (s.readR rt)) = false ∧
      writeSys32 form reg rt s = .next (writeFields32 (s.readR rt) s reg).advance) := by
  unfold writeSys32
  rw [access32_performed _ hi hok hp (by simp [ha]) (.inl ha)]
  cases s.refusesWrite (reservedBroken (.a32 reg) (s.readR rt)) <;> simp

/-! Access rights. -/

/-- `Acc64` is the table where the enable is true, and NONE where it is not (R60). -/
theorem acc64_of_enabled {s : State} (reg : SysReg64) (h : a64FpAccessEnabled s = true) :
    acc64 reg s = table64 reg s.ctx.el := by
  simp [acc64, h]

/-- Without the enable there is no right (R60 step 1). -/
theorem acc64_of_disabled {s : State} (reg : SysReg64) (h : a64FpAccessEnabled s = false) : acc64 reg s = .none := by
  simp [acc64, h]

/-- Everything `Acc32` can answer (R60). -/
theorem acc32_cases (reg : SysReg32) (s : State) :
    (table32 reg s.ctx.el s.ctx.secure = .dash ∧ acc32 reg s = .none) ∨
    (a32FpAccessEnabled reg s = false ∧ acc32 reg s = .none) ∨
    (table32 reg s.ctx.el s.ctx.secure ≠ .dash ∧ a32FpAccessEnabled reg s = true ∧ acc32 reg s = type32 reg) := by
  cases ht : table32 reg s.ctx.el s.ctx.secure <;> cases he : a32FpAccessEnabled reg s <;> simp [acc32, ht, he]

/-- An AArch32 table entry is `-` exactly at EL0 for a register other than FPSCR (R42, R44, R49, R51). -/
theorem table32_dash_iff (reg : SysReg32) (el : El) (secure : Bool) :
    table32 reg el secure = .dash ↔ el = .el0 ∧ reg ≠ .fpscr := by
  cases reg <;> cases el <;> cases secure <;> decide

/-- FPSCR's right is its type exactly where its enable is true: no column is `-` (R44, R133). -/
theorem acc32_fpscr (s : State) : acc32 .fpscr s = if a32FpAccessEnabled .fpscr s then .rw else .none := by
  rcases acc32_cases .fpscr s with ⟨h, -⟩ | ⟨he, h⟩ | ⟨-, he, h⟩
  · simp [table32_dash_iff] at h
  · simp [he, h]
  · simp [he, h, type32]

/-! Placing an instruction. -/

/-- The address the fetch uses after an instruction was placed there is the program counter, a multiple of 4, with room for
four bytes. -/
theorem State.placeWord_pc (s : State) (w : Word) :
    (s.placeWord w).pc.toNat % 4 = 0 ∧ (s.placeWord w).pc.toNat + 4 ≤ 2 ^ pcWidth (tableIsa w) ∧
      (s.placeWord w).fetchAddr = (s.placeWord w).pc.toNat := by
  have hw : pcWidth (tableIsa w) = 32 ∨ pcWidth (tableIsa w) = 64 := by
    cases tableIsa w <;> simp [pcWidth]
  simp only [State.placeWord, State.fetchAddr, BitVec.toNat_ofNat]
  rcases hw with hw | hw <;> simp only [hw] <;> refine ⟨?_, ?_, ?_⟩ <;> omega

/-- Placing an instruction keeps the canonical form of the program text. -/
theorem State.placeWord_wf {s : State} (w : Word) (h : s.mem.wf = true) : (s.placeWord w).mem.wf = true := by
  have hpc := (s.placeWord_pc w).2.1
  have hle : 2 ^ pcWidth (tableIsa w) ≤ 2 ^ 64 := by cases tableIsa w <;> simp [pcWidth]
  refine Memory.wf_writeBytes _ ?_ h
  have hlen : (bytesOfWord (tableIsa w) w).length = 4 := by cases tableIsa w <;> rfl
  rw [hlen]
  exact le_trans hpc hle

end Sys2Proof.Machine
end

