-- ==== Sys2Proof/Laws/Decode.lean ====
section
/-! SUPPORT. The byte order of the instruction words (R72, R95), the fields of the words (R92, R94, R95), and what a step
can be. -/

namespace Sys2Proof

open Machine (Isa SysReg64)

/-- A word laid out and read back is that word. -/
theorem decodeBytes_bytesOfWord (isa : Isa) (w : Word) (rest : List Byte) :
    decodeBytes isa (bytesOfWord isa w ++ rest) = decodeWord isa w := by
  have key : (w.extractLsb' 24 8 ++ w.extractLsb' 16 8) ++ (w.extractLsb' 8 8 ++ w.extractLsb' 0 8) = w := by
    have h1 : w.extractLsb' 24 8 ++ w.extractLsb' 16 8 = w.extractLsb' 16 16 :=
      BitVec.extractLsb'_append_extractLsb'_eq_extractLsb' (by rfl)
    have h2 : w.extractLsb' 8 8 ++ w.extractLsb' 0 8 = w.extractLsb' 0 16 :=
      BitVec.extractLsb'_append_extractLsb'_eq_extractLsb' (by rfl)
    have h3 : w.extractLsb' 16 16 ++ w.extractLsb' 0 16 = w.extractLsb' 0 32 :=
      BitVec.extractLsb'_append_extractLsb'_eq_extractLsb' (by rfl)
    rw [h1, h2, h3]
    exact BitVec.extractLsb'_eq_self
  cases isa <;> simp only [bytesOfWord, List.cons_append, decodeBytes, wordOfBytes, Nat.reduceMul, Nat.mul_zero] <;>
    exact congrArg _ key

/-- Four bytes long, in every instruction set (R90). -/
theorem bytesOfWord_length (isa : Isa) (w : Word) : (bytesOfWord isa w).length = 4 := by
  cases isa <;> rfl

/-! The words and their fields. -/

/-- A `VMRS`/`VMSR` word bit by bit (R94). -/
theorem vfpWord_getLsbD (cond : BitVec 4) (l : BitVec 1) (reg rt : BitVec 4) (i : Nat) :
    (vfpWord cond l reg rt).getLsbD i =
      if 28 ≤ i then cond.getLsbD (i - 28) else if i = 20 then l.getLsbD 0
      else if 16 ≤ i ∧ i < 20 then reg.getLsbD (i - 16) else if 12 ≤ i ∧ i < 16 then rt.getLsbD (i - 12)
      else (0x0EE00A10#32).getLsbD i := by
  by_cases hi : i < 32
  · simp only [vfpWord, BitVec.getLsbD_append]
    interval_cases i <;> simp
  · rw [BitVec.getLsbD_of_ge _ _ (by omega), if_pos (by omega), BitVec.getLsbD_of_ge _ _ (by omega)]

/-- An `MRS`/`MSR` word bit by bit (R92). -/
theorem sysWord_getLsbD (l : BitVec 1) (reg : SysReg64) (rt : BitVec 5) (i : Nat) :
    (sysWord l reg rt).getLsbD i =
      if i < 5 then rt.getLsbD i else if i < 8 then (selectorOf reg).op2.getLsbD (i - 5)
      else if i < 12 then (selectorOf reg).crm.getLsbD (i - 8) else if i < 16 then (selectorOf reg).crn.getLsbD (i - 12)
      else if i < 19 then (selectorOf reg).op1.getLsbD (i - 16) else if i = 19 then (selectorOf reg).op0.getLsbD 0
      else if i = 21 then l.getLsbD 0
      else (0xD5100000#32).getLsbD i := by
  by_cases hi : i < 32
  · simp only [sysWord, BitVec.getLsbD_append]
    interval_cases i <;> simp
  · rw [BitVec.getLsbD_of_ge _ _ (by omega)]
    repeat rw [if_neg (by omega)]
    rw [BitVec.getLsbD_of_ge _ _ (by omega)]

/-- The condition field reads back (R94). -/
@[simp] theorem condField_vfpWord (cond : BitVec 4) (l : BitVec 1) (reg rt : BitVec 4) :
    condField (vfpWord cond l reg rt) = cond := by
  apply BitVec.eq_of_getLsbD_eq; intro i hi
  simp only [condField, BitVec.getLsbD_extractLsb', vfpWord_getLsbD]
  interval_cases i <;> simp

/-- The register field reads back (R94). -/
@[simp] theorem regField_vfpWord (cond : BitVec 4) (l : BitVec 1) (reg rt : BitVec 4) :
    regField (vfpWord cond l reg rt) = reg := by
  apply BitVec.eq_of_getLsbD_eq; intro i hi
  simp only [regField, BitVec.getLsbD_extractLsb', vfpWord_getLsbD]
  interval_cases i <;> simp

/-- The Rt field reads back (R94). -/
@[simp] theorem rtField_vfpWord (cond : BitVec 4) (l : BitVec 1) (reg rt : BitVec 4) :
    rtField (vfpWord cond l reg rt) = rt := by
  apply BitVec.eq_of_getLsbD_eq; intro i hi
  simp only [rtField, BitVec.getLsbD_extractLsb', vfpWord_getLsbD]
  interval_cases i <;> simp

/-- The L bit reads back (R94). -/
@[simp] theorem lField_vfpWord (cond : BitVec 4) (l : BitVec 1) (reg rt : BitVec 4) :
    lField (vfpWord cond l reg rt) = l.getLsbD 0 := by
  simp only [lField, vfpWord_getLsbD]; simp

/-- The fixed bits of R94. -/
theorem vfpWord_fixed (cond : BitVec 4) (l : BitVec 1) (reg rt : BitVec 4) :
    vfpWord cond l reg rt &&& 0x0FE00FFF#32 = 0x0EE00A10#32 := by
  apply BitVec.eq_of_getLsbD_eq; intro i hi
  simp only [BitVec.getLsbD_and, vfpWord_getLsbD]
  interval_cases i <;> simp

/-- The fixed bits of R95. -/
theorem vfpWordT32_fixed (l : BitVec 1) (reg rt : BitVec 4) :
    vfpWordT32 l reg rt &&& 0xFFE00FFF#32 = 0xEEE00A10#32 := by
  apply BitVec.eq_of_getLsbD_eq; intro i hi
  simp only [BitVec.getLsbD_and, vfpWordT32, vfpWord_getLsbD]
  interval_cases i <;> simp

/-- A word with the fixed bits of R94 is the word of its fields. -/
theorem eq_vfpWord {w : Word} (h : w &&& 0x0FE00FFF#32 = 0x0EE00A10#32) :
    w = vfpWord (condField w) (BitVec.ofBool (lField w)) (regField w) (rtField w) := by
  apply BitVec.eq_of_getLsbD_eq; intro i hi
  have hb := congrArg (fun v => BitVec.getLsbD v i) h
  simp only [BitVec.getLsbD_and] at hb
  simp only [vfpWord_getLsbD, condField, lField, regField, rtField, BitVec.getLsbD_extractLsb']
  interval_cases i <;> simp at hb ⊢ <;> exact hb

/-- A halfword pair with the fixed bits of R95 is the word of its fields. -/
theorem eq_vfpWordT32 {w : Word} (h : w &&& 0xFFE00FFF#32 = 0xEEE00A10#32) :
    w = vfpWordT32 (BitVec.ofBool (lField w)) (regField w) (rtField w) := by
  apply BitVec.eq_of_getLsbD_eq; intro i hi
  have hb := congrArg (fun v => BitVec.getLsbD v i) h
  simp only [BitVec.getLsbD_and] at hb
  simp only [vfpWordT32, vfpWord_getLsbD, lField, regField, rtField, BitVec.getLsbD_extractLsb']
  interval_cases i <;> simp at hb ⊢ <;> exact hb

/-- The selector reads back (R92). -/
@[simp] theorem selectorField_sysWord (l : BitVec 1) (reg : SysReg64) (rt : BitVec 5) :
    selectorField (sysWord l reg rt) = selectorOf reg := by
  revert l rt; cases reg <;> decide

/-- Each register's selector names it: no two registers share one (R93). -/
@[simp] theorem registerOf_selectorOf (reg : SysReg64) : registerOf (selectorOf reg) = some reg := by
  cases reg <;> decide

/-- A selector that names a register is that register's. -/
theorem registerOf_eq_some {sel : Selector} {reg : SysReg64} (h : registerOf sel = some reg) : selectorOf reg = sel := by
  simpa using List.find?_some h

/-- The fixed bits of R92. -/
theorem sysWord_fixed (l : BitVec 1) (reg : SysReg64) (rt : BitVec 5) :
    sysWord l reg rt &&& 0xFFF00000#32 = if l = 1#1 then 0xD5300000#32 else 0xD5100000#32 := by
  revert l rt; cases reg <;> decide

/-- The Rt field reads back (R92). -/
@[simp] theorem rt_sysWord (l : BitVec 1) (reg : SysReg64) (rt : BitVec 5) :
    (sysWord l reg rt).extractLsb' 0 5 = rt := by
  revert l rt; cases reg <;> decide

/-- A word with the fixed bits of R92 and a register's selector is the word of that register. -/
theorem eq_sysWord {w : Word} {l : BitVec 1} {reg : SysReg64} (hs : selectorOf reg = selectorField w)
    (h : w &&& 0xFFF00000#32 = if l = 1#1 then 0xD5300000#32 else 0xD5100000#32) :
    w = sysWord l reg (w.extractLsb' 0 5) := by
  apply BitVec.eq_of_getLsbD_eq; intro i hi
  have hb := congrArg (fun v => BitVec.getLsbD v i) h
  simp only [BitVec.getLsbD_and] at hb
  simp only [sysWord_getLsbD, hs, selectorField, BitVec.getLsbD_extractLsb', BitVec.getLsbD_append]
  have hl : l = 0#1 ∨ l = 1#1 := by clear hb h; revert l; decide
  rcases hl with rfl | rfl <;> interval_cases i <;> simp at hb ⊢ <;> exact hb

namespace Machine

/-- A step is its instruction's `exec` where the fetch reads bytes that decode to it. -/
theorem step_of_fetch {s : State} {bytes : List Byte} {i : Instr} (hf : fetch s = .next bytes)
    (hd : decodeBytes s.ctx.isa bytes = .ok i) : step s = exec i s := by
  simp [step, hf, hd]

/-- Everything a step can be: the fetch stops, the decoder refuses, or one instruction runs. -/
theorem step_cases (s : State) :
    (fetch s = .refused .pcMisaligned ∧ step s = .refused .pcMisaligned) ∨
    (fetch s = .fault (.fetchOutsideProgram s.pc) ∧ step s = .fault (.fetchOutsideProgram s.pc)) ∨
    (∃ bytes, fetch s = .next bytes ∧
      ((∃ e, decodeBytes s.ctx.isa bytes = .error e ∧ step s = .refused (refusalOfDecode e)) ∨
        ∃ i, decodeBytes s.ctx.isa bytes = .ok i ∧ step s = exec i s)) := by
  by_cases ha : s.fetchAddr % fetchAlignment s.ctx.isa = 0
  · cases hb : s.mem.readBytes (2 ^ pcWidth s.ctx.isa) s.fetchAddr 4 with
    | none =>
      have hf : fetch s = .fault (.fetchOutsideProgram s.pc) := by simp [fetch, ha, hb]
      exact .inr (.inl ⟨hf, by simp [step, hf]⟩)
    | some bytes =>
      have hf : fetch s = .next bytes := by simp [fetch, ha, hb]
      refine .inr (.inr ⟨bytes, hf, ?_⟩)
      cases hd : decodeBytes s.ctx.isa bytes with
      | error e => exact .inl ⟨e, rfl, by simp [step, hf, hd]⟩
      | ok i => exact .inr ⟨i, rfl, by simp [step, hf, hd]⟩
  · have hf : fetch s = .refused .pcMisaligned := by simp [fetch, ha]
    exact .inl ⟨hf, by simp [step, hf]⟩

/-- The fetch reads the bytes of a word that was placed. -/
theorem fetch_placeWord (s : State) (w : Word) : fetch (s.placeWord w) = .next (bytesOfWord (tableIsa w) w) := by
  obtain ⟨h4, htop, haddr⟩ := s.placeWord_pc w
  have hisa : (s.placeWord w).ctx.isa = tableIsa w := rfl
  have hal : (s.placeWord w).pc.toNat % fetchAlignment (tableIsa w) = 0 := by
    cases tableIsa w <;> simp only [fetchAlignment] <;> omega
  have hmem : (s.placeWord w).mem =
      s.mem.writeBytes (s.placeWord w).pc.toNat (bytesOfWord (tableIsa w) w) := rfl
  have hread := Memory.readBytes_writeBytes (bytesOfWord (tableIsa w) w) s.mem
    (limit := 2 ^ pcWidth (tableIsa w)) (a := (s.placeWord w).pc.toNat) (by rw [bytesOfWord_length]; exact htop)
  rw [bytesOfWord_length, ← hmem] at hread
  simp only [fetch, haddr, hisa, hal, ne_eq, not_true_eq_false, if_false, hread]

end Machine

end Sys2Proof
end

