-- ==== Sys2Proof/Laws/Views.lean ====
section
/-! SUPPORT. The register views bit by bit, and as the shifts of R26, R29, R38. -/

namespace Sys2Proof.Machine

/-- RMode's encoding and its reading are inverse (R26). -/
@[simp] theorem RoundingMode.bits_ofBits (b : BitVec 2) : (RoundingMode.ofBits b).bits = b := by
  revert b; decide

/-- RMode's reading and its encoding are inverse (R26). -/
@[simp] theorem RoundingMode.ofBits_bits (m : RoundingMode) : RoundingMode.ofBits m.bits = m := by
  cases m <;> rfl

/-- FPCR as the shifts of R26. -/
theorem fpcrView_eq_shifts (f : FieldStore) :
    fpcrView f = ((BitVec.ofBool f.control.ahp).setWidth 32 <<< 26 ||| (BitVec.ofBool f.control.dn).setWidth 32 <<< 25 |||
      (BitVec.ofBool f.control.fz).setWidth 32 <<< 24 ||| f.control.rmode.bits.setWidth 32 <<< 22 : Word) := by
  have key (a d z : Bool) (m : BitVec 2) :
      (0#5 ++ BitVec.ofBool a ++ BitVec.ofBool d ++ BitVec.ofBool z ++ m ++ 0#22 : Word) =
        (BitVec.ofBool a).setWidth 32 <<< 26 ||| (BitVec.ofBool d).setWidth 32 <<< 25 |||
          (BitVec.ofBool z).setWidth 32 <<< 24 ||| m.setWidth 32 <<< 22 := by
    revert a d z m; decide
  exact key _ _ _ _

/-- FPSR as the shifts of R29. -/
theorem fpsrView_eq_shifts (f : FieldStore) :
    fpsrView f = ((BitVec.ofBool f.flags.n).setWidth 32 <<< 31 ||| (BitVec.ofBool f.flags.z).setWidth 32 <<< 30 |||
      (BitVec.ofBool f.flags.c).setWidth 32 <<< 29 ||| (BitVec.ofBool f.flags.v).setWidth 32 <<< 28 |||
      (BitVec.ofBool f.qc).setWidth 32 <<< 27 ||| (BitVec.ofBool f.exc.idc).setWidth 32 <<< 7 |||
      (BitVec.ofBool f.exc.ixc).setWidth 32 <<< 4 ||| (BitVec.ofBool f.exc.ufc).setWidth 32 <<< 3 |||
      (BitVec.ofBool f.exc.ofc).setWidth 32 <<< 2 ||| (BitVec.ofBool f.exc.dzc).setWidth 32 <<< 1 |||
      (BitVec.ofBool f.exc.ioc).setWidth 32 : Word) := by
  have key (n z c v qc idc ixc ufc ofc dzc ioc : Bool) :
      (BitVec.ofBool n ++ BitVec.ofBool z ++ BitVec.ofBool c ++ BitVec.ofBool v ++ BitVec.ofBool qc ++ 0#19 ++
        BitVec.ofBool idc ++ 0#2 ++ BitVec.ofBool ixc ++ BitVec.ofBool ufc ++ BitVec.ofBool ofc ++ BitVec.ofBool dzc ++
        BitVec.ofBool ioc : Word) =
      (BitVec.ofBool n).setWidth 32 <<< 31 ||| (BitVec.ofBool z).setWidth 32 <<< 30 |||
        (BitVec.ofBool c).setWidth 32 <<< 29 ||| (BitVec.ofBool v).setWidth 32 <<< 28 |||
        (BitVec.ofBool qc).setWidth 32 <<< 27 ||| (BitVec.ofBool idc).setWidth 32 <<< 7 |||
        (BitVec.ofBool ixc).setWidth 32 <<< 4 ||| (BitVec.ofBool ufc).setWidth 32 <<< 3 |||
        (BitVec.ofBool ofc).setWidth 32 <<< 2 ||| (BitVec.ofBool dzc).setWidth 32 <<< 1 |||
        (BitVec.ofBool ioc).setWidth 32 := by
    revert n z c v qc idc ixc ufc ofc dzc ioc; decide
  exact key _ _ _ _ _ _ _ _ _ _ _

/-- FPCR bit by bit (R26). -/
theorem fpcrView_getLsbD (f : FieldStore) (i : Nat) :
    (fpcrView f).getLsbD i =
      if i = 26 then f.control.ahp else if i = 25 then f.control.dn else if i = 24 then f.control.fz
      else if i = 23 then f.control.rmode.bits.getLsbD 1 else if i = 22 then f.control.rmode.bits.getLsbD 0
      else false := by
  rw [fpcrView_eq_shifts]
  by_cases hi : i < 32
  · interval_cases i <;> simp
  · rw [BitVec.getLsbD_of_ge _ _ (by omega)]
    repeat rw [if_neg (by omega)]

/-- FPSR bit by bit (R29). -/
theorem fpsrView_getLsbD (f : FieldStore) (i : Nat) :
    (fpsrView f).getLsbD i =
      if i = 31 then f.flags.n else if i = 30 then f.flags.z else if i = 29 then f.flags.c
      else if i = 28 then f.flags.v else if i = 27 then f.qc else if i = 7 then f.exc.idc else if i = 4 then f.exc.ixc
      else if i = 3 then f.exc.ufc else if i = 2 then f.exc.ofc else if i = 1 then f.exc.dzc
      else if i = 0 then f.exc.ioc else false := by
  rw [fpsrView_eq_shifts]
  by_cases hi : i < 32
  · interval_cases i <;> simp
  · rw [BitVec.getLsbD_of_ge _ _ (by omega)]
    repeat rw [if_neg (by omega)]

/-- FPEXC bit by bit (R38, R50). -/
theorem fpexcView_getLsbD (en : Bool) (i : Nat) :
    (fpexcView en).getLsbD i = if i = 30 then en else decide (8 ≤ i ∧ i ≤ 10) := by
  by_cases hi : i < 32
  · interval_cases i <;> cases en <;> decide
  · rw [BitVec.getLsbD_of_ge _ _ (by omega), if_neg (by omega)]
    exact (decide_eq_false (by omega)).symm

/-- FPCR zero-extended is the formula of R112. -/
theorem fpcrView_eq_formula (f : FieldStore) : (fpcrView f).setWidth 64 = fpcrFormula f := by
  rw [fpcrView_eq_shifts]
  simp only [fpcrFormula, bitAt, BitVec.setWidth_or]
  cases f.control.ahp <;> cases f.control.dn <;> cases f.control.fz <;> cases f.control.rmode <;> decide

/-- FPSR zero-extended is the formula of R29. -/
theorem fpsrView_eq_formula (f : FieldStore) : (fpsrView f).setWidth 64 = fpsrFormula f := by
  have key : ∀ (b : Bool) (n : Nat), n < 32 →
      ((BitVec.ofBool b).setWidth 32 <<< n).setWidth 64 = ((BitVec.ofBool b).setWidth 64 <<< n : DWord) := by
    intro b n hn
    interval_cases n <;> cases b <;> decide
  rw [fpsrView_eq_shifts]
  simp only [fpsrFormula, bitAt, BitVec.setWidth_or]
  rw [key _ 31 (by decide), key _ 30 (by decide), key _ 29 (by decide), key _ 28 (by decide), key _ 27 (by decide),
    key _ 7 (by decide), key _ 4 (by decide), key _ 3 (by decide), key _ 2 (by decide), key _ 1 (by decide)]
  simp

end Sys2Proof.Machine
end

