-- ==== Sys2Proof/Laws/Exec.lean ====
section
/-! SUPPORT. Which shared operation each instruction is, everything a completed instruction can have done, and the frames of
Safety.lean met by the shared operations. -/

namespace Sys2Proof.Machine

/-! Access rights as conditions. -/

/-- Where an AArch64 access is allowed (R60). -/
theorem acc64_ne_none_iff (reg : SysReg64) (s : State) :
    acc64 reg s ≠ .none ↔ a64FpAccessEnabled s = true ∧ table64 reg s.ctx.el ≠ .none := by
  unfold acc64; split <;> simp_all

/-- EN's part of the AArch32 enable (R52, D23). -/
theorem enOpen_iff {s : State} (h : s.ctx.isa ≠ .a64) : enOpen s = true ↔ EnabledByEn s := by
  unfold enOpen EnabledByEn
  cases hi : s.ctx.isa <;> simp_all [Isa.execState]

/-- The AArch32 enable (R9, D6, D23). -/
theorem a32FpAccessEnabled_iff (reg : SysReg32) {s : State} (h : s.ctx.isa ≠ .a64) :
    a32FpAccessEnabled reg s = true ↔ Granted32 reg s ∧ (dependsOnEn reg = true → EnabledByEn s) := by
  unfold a32FpAccessEnabled Granted32
  rw [← enOpen_iff h]
  cases dependsOnEn reg <;> simp

/-- Where an AArch32 access is allowed: not `-` in the table, granted, and not disabled by EN (R60). -/
def Allowed32 (reg : SysReg32) (s : State) : Prop :=
  (s.ctx.el = .el0 → reg = .fpscr) ∧ Granted32 reg s ∧ (dependsOnEn reg = true → EnabledByEn s)

/-- An allowed AArch32 access has the register's own type. -/
theorem acc32_of_allowed {reg : SysReg32} {s : State} (hi : s.ctx.isa ≠ .a64) (h : Allowed32 reg s) :
    acc32 reg s = type32 reg := by
  obtain ⟨hel, hen⟩ := h
  rw [← a32FpAccessEnabled_iff reg hi] at hen
  rcases acc32_cases reg s with ⟨h1, -⟩ | ⟨h1, -⟩ | ⟨-, -, h3⟩
  · rw [table32_dash_iff] at h1; exact absurd (hel h1.1) h1.2
  · simp [hen] at h1
  · exact h3

/-- Every other AArch32 access has no right. -/
theorem acc32_of_not_allowed {reg : SysReg32} {s : State} (hi : s.ctx.isa ≠ .a64) (h : ¬ Allowed32 reg s) :
    acc32 reg s = .none := by
  unfold Allowed32 at h
  rw [← a32FpAccessEnabled_iff reg hi] at h
  rcases acc32_cases reg s with ⟨-, h2⟩ | ⟨-, h2⟩ | ⟨h1, h2, -⟩
  · exact h2
  · exact h2
  · rw [Ne, table32_dash_iff] at h1
    exact absurd ⟨fun he => not_not.mp fun hr => h1 ⟨he, hr⟩, h2⟩ h

/-! The frames. -/

/-- What `XHolds` says of `readX`. -/
theorem readX_of_xHolds {s : State} {rt : BitVec 5} {v : DWord} (h : XHolds s rt v) : s.readX rt = v := by
  rcases h with ⟨rfl, rfl⟩ | h
  · exact State.readX_xzr s
  · exact State.readX_of_getElem? h

/-- A register write followed by the advance is `OnlyXWritten`. -/
theorem onlyXWritten_writeX (s : State) (rt : BitVec 5) (v : DWord) : OnlyXWritten s (s.writeX rt v).advance rt v := by
  refine ⟨fun k hk => State.writeX_getElem? s rt v k hk, ?_⟩
  conv_lhs => rw [State.writeX_eq]
  simp [State.advance]

/-- A register write followed by the advance is `OnlyRWritten`. -/
theorem onlyRWritten_writeR (s : State) (rt : BitVec 4) (v : Word) : OnlyRWritten s (s.writeR rt v).advance rt v := by
  refine ⟨fun k hk => State.writeR_getElem? s rt v k hk, ?_⟩
  conv_lhs => rw [State.writeR_eq]
  simp [State.advance]

/-- An A32 form that runs passes the checks of `access32`. -/
theorem checks_of_runsA32 {s : State} {cond rt : BitVec 4} (h : RunsA32 s cond rt) :
    s.ctx.isa = (Form32.a32 cond).isa ∧ ((Form32.a32 cond).condAdmitted && (Form32.a32 cond).rtAdmitted rt) = true ∧
      (Form32.a32 cond).passes s = true := by
  obtain ⟨h1, h2, h3, h4⟩ := h
  exact ⟨h1, by simp [Form32.condAdmitted, Form32.rtAdmitted, condAdmitted, rtAdmittedA32, h2, h3], h4⟩

/-- A T32 form that runs passes the checks of `access32`. -/
theorem checks_of_runsT32 {s : State} {rt : BitVec 4} (h : RunsT32 s rt) :
    s.ctx.isa = Form32.t32.isa ∧ (Form32.t32.condAdmitted && Form32.t32.rtAdmitted rt) = true ∧
      Form32.t32.passes s = true := by
  obtain ⟨h1, h2, h3⟩ := h
  exact ⟨h1, by simp [Form32.condAdmitted, Form32.rtAdmitted, rtAdmittedT32, h2, h3], rfl⟩

/-! What an instruction is. -/

/-- The shared operation an instruction is, with what its constructor says of the register and of well-formedness. -/
inductive ExecShape (i : Instr) (s : State) : Prop
  | readSys64 (reg : SysReg64) (rt : BitVec 5) (run : exec i s = Machine.readSys64 reg rt s) (isa : i.isa = .a64)
      (writes : writesControl i = false ∧ writesStatus i = false ∧ writesEn i = false ∧ refusedBySpec i = false)
      (en : readsEn64 i = true ↔ reg = .fpexc32El2)
      (own : accessOf i = some (.a64 reg, .read) ∧ i.wf = true ∧ conditionPassed s (condOf i) = true)
  | writeSys64 (reg : SysReg64) (rt : BitVec 5) (run : exec i s = Machine.writeSys64 reg rt s) (isa : i.isa = .a64)
      (writes : (writesControl i = true ↔ reg = .fpcr) ∧ (writesStatus i = true ↔ reg = .fpsr) ∧
        (writesEn i = true ↔ reg = .fpexc32El2) ∧ refusedBySpec i = false)
      (reg_mem : reg ∈ [SysReg64.fpcr, .fpsr, .fpexc32El2])
      (own : accessOf i = some (.a64 reg, .write) ∧ i.wf = true ∧ conditionPassed s (condOf i) = true)
      (kept : badWrite64 reg (s.readX rt) = false ↔ KeepsReserved s i)
  | readSys32 (form : Form32) (reg : SysReg32) (rt : BitVec 4) (run : exec i s = Machine.readSys32 form reg rt s)
      (isa : i.isa = form.isa) (wf : i.wf = (form.condAdmitted && form.rtAdmitted rt))
      (writes : writesControl i = false ∧ writesStatus i = false ∧ writesEn i = false ∧ refusedBySpec i = false)
      (own : accessOf i = some (.a32 reg, .read) ∧ conditionPassed s (condOf i) = form.passes s)
  | writeSys32 (form : Form32) (reg : SysReg32) (rt : BitVec 4) (run : exec i s = Machine.writeSys32 form reg rt s)
      (isa : i.isa = form.isa) (wf : i.wf = (form.condAdmitted && form.rtAdmitted rt))
      (writes : (writesControl i = true ↔ reg = .fpscr) ∧ (writesStatus i = true ↔ reg = .fpscr) ∧
        (writesEn i = true ↔ reg = .fpexc) ∧ refusedBySpec i = false)
      (reg_mem : reg ∈ [SysReg32.fpscr, .fpexc])
      (own : accessOf i = some (.a32 reg, .write) ∧ conditionPassed s (condOf i) = form.passes s)
      (kept : reservedBroken (.a32 reg) (s.readR rt) = false ↔ KeepsReserved s i)
  | transferFlags (form : Form32) (run : exec i s = Machine.transferFlags form s) (isa : i.isa = form.isa)
      (wf : i.wf = (form.condAdmitted && true))
      (writes : writesControl i = false ∧ writesStatus i = false ∧ writesEn i = false ∧ refusedBySpec i = false)
      (which : i = .vmrsApsrFpscrT32 ∨ ∃ cond, i = .vmrsApsrFpscrA32 cond)
      (own : accessOf i = some (.a32 .fpscr, .read) ∧ conditionPassed s (condOf i) = form.passes s)
  | refused (r : Refusal) (run : exec i s = .refused r) (spec : refusedBySpec i = true) (own : accessOf i = none)

/-- Every instruction is one of the shared operations. -/
theorem exec_shape (i : Instr) (s : State) : ExecShape i s := by
  cases i
  case mrsFpcr | mrsFpsr | mrsMvfr0El1 | mrsMvfr1El1 | mrsMvfr2El1 | mrsFpexc32El2 | mrsIdAa64pfr0El1 =>
    exact .readSys64 _ _ rfl rfl ⟨rfl, rfl, rfl, rfl⟩ (by simp [readsEn64]) ⟨rfl, rfl, rfl⟩
  case msrFpcr | msrFpsr | msrFpexc32El2 =>
    exact .writeSys64 _ _ rfl rfl (by simp [writesControl, writesStatus, writesEn, refusedBySpec]) (by decide)
      ⟨rfl, rfl, rfl⟩ (badWrite64_eq_false_iff _ _)
  case vmrsFpsidA32 | vmrsFpscrA32 | vmrsMvfr0A32 | vmrsMvfr1A32 | vmrsMvfr2A32 | vmrsFpexcA32 =>
    exact .readSys32 (.a32 _) _ _ rfl rfl rfl ⟨rfl, rfl, rfl, rfl⟩ ⟨rfl, rfl⟩
  case vmsrFpscrA32 | vmsrFpexcA32 =>
    exact .writeSys32 (.a32 _) _ _ rfl rfl rfl (by simp [writesControl, writesStatus, writesEn, refusedBySpec])
      (by decide) ⟨rfl, rfl⟩ (reservedBroken_eq_false_iff _ _)
  case vmrsFpsidT32 | vmrsFpscrT32 | vmrsMvfr0T32 | vmrsMvfr1T32 | vmrsMvfr2T32 | vmrsFpexcT32 =>
    exact .readSys32 .t32 _ _ rfl rfl rfl ⟨rfl, rfl, rfl, rfl⟩ ⟨rfl, rfl⟩
  case vmsrFpscrT32 | vmsrFpexcT32 =>
    exact .writeSys32 .t32 _ _ rfl rfl rfl (by simp [writesControl, writesStatus, writesEn, refusedBySpec]) (by decide)
      ⟨rfl, rfl⟩ (reservedBroken_eq_false_iff _ _)
  case vmrsApsrFpscrA32 cond =>
    exact .transferFlags (.a32 cond) rfl rfl (Bool.and_true _).symm ⟨rfl, rfl, rfl, rfl⟩ (.inr ⟨cond, rfl⟩) ⟨rfl, rfl⟩
  case vmrsApsrFpscrT32 => exact .transferFlags .t32 rfl rfl rfl ⟨rfl, rfl, rfl, rfl⟩ (.inl rfl) ⟨rfl, rfl⟩
  all_goals exact .refused _ rfl rfl rfl

/-- An AArch32 form is of no A64 instruction set. -/
theorem Form32.isa_ne_a64 (form : Form32) : form.isa ≠ .a64 := by cases form <;> simp [Form32.isa]

/-- Only an A32 form's condition can fail (R143). -/
theorem Form32.isa_of_not_passes {form : Form32} {s : State} (h : form.passes s = false) : form.isa = .a32 := by
  cases form
  · rfl
  · simp [Form32.passes] at h

/-- A completed AArch32 access: a condition failed, or the access was allowed and performed. -/
theorem access32_next_cases {form : Form32} {ok : Bool} {reg : SysReg32} {access : Access} {s t : State}
    {p : Host.Outcome State Fault Refusal} (h : access32 form ok reg access s p = .next t) :
    s.ctx.isa = form.isa ∧
      ((t = s.advance ∧ form.passes s = false) ∨
        (p = .next t ∧ acc32 reg s ≠ .none ∧ (acc32 reg s = .rw ∨ access = .read))) := by
  rcases access32_cases form ok reg access s p with ⟨-, h'⟩ | ⟨-, -, h'⟩ | ⟨hi, -, hp, h'⟩ | ⟨-, -, -, -, h'⟩ |
    ⟨-, -, -, -, -, h'⟩ | ⟨hi, -, -, hn, hw, h'⟩ <;> rw [h'] at h
  · cases h
  · cases h
  · cases h; exact ⟨hi, .inl ⟨rfl, hp⟩⟩
  · cases h
  · cases h
  · exact ⟨hi, .inr ⟨h, hn, hw⟩⟩

/-- Everything a completed instruction can have done. -/
theorem exec_next_cases {i : Instr} {s t : State} (h : exec i s = .next t) :
    (∃ rt v, t = (s.writeX rt v).advance ∧ writesControl i = false ∧ writesStatus i = false ∧ writesEn i = false) ∨
    (∃ rt v, t = (s.writeR rt v).advance ∧ writesControl i = false ∧ writesStatus i = false ∧ writesEn i = false) ∨
    (∃ w reg, t = (writeFields64 w s reg).advance ∧ s.ctx.isa = .a64 ∧ i.isa = .a64 ∧ acc64 reg s = .rw ∧
      (writesControl i = true ↔ reg = .fpcr) ∧ (writesStatus i = true ↔ reg = .fpsr) ∧
      (writesEn i = true ↔ reg = .fpexc32El2)) ∨
    (∃ w reg, t = (writeFields32 w s reg).advance ∧ s.ctx.isa ≠ .a64 ∧ i.isa = s.ctx.isa ∧ acc32 reg s = .rw ∧
      (writesControl i = true ↔ reg = .fpscr) ∧ (writesStatus i = true ↔ reg = .fpscr) ∧
      (writesEn i = true ↔ reg = .fpexc)) ∨
    (t = ({ s with apsr := s.f.flags } : State).advance ∧
      (i = .vmrsApsrFpscrT32 ∨ ∃ cond, i = .vmrsApsrFpscrA32 cond)) ∨
    (t = s.advance ∧ i.isa = .a32 ∧ conditionPassed s (condOf i) = false) := by
  rcases exec_shape i s with ⟨reg, rt, hx, -, hw, -⟩ | ⟨reg, rt, hx, hi, hw, -⟩ | ⟨form, reg, rt, hx, hi, -, hw, hown⟩ |
    ⟨form, reg, rt, hx, hi, -, hw, -, hown, -⟩ | ⟨form, hx, hi, -, -, hwhich, hown⟩ | ⟨r, hx, -⟩ <;> rw [hx] at h
  · rcases readSys64_cases reg rt s with ⟨-, h'⟩ | ⟨-, -, h'⟩ | ⟨-, -, h'⟩ <;> rw [h'] at h <;> cases h
    exact .inl ⟨_, _, rfl, hw.1, hw.2.1, hw.2.2.1⟩
  · rcases writeSys64_cases reg rt s with ⟨-, h'⟩ | ⟨-, -, h'⟩ | ⟨-, -, h'⟩ | ⟨-, -, -, h'⟩ | ⟨h1, h2, -, h'⟩ <;>
      rw [h'] at h <;> cases h
    exact .inr (.inr (.inl ⟨_, _, rfl, h1, hi, h2, hw.1, hw.2.1, hw.2.2.1⟩))
  · rcases access32_next_cases h with ⟨-, ⟨rfl, hp⟩ | ⟨h, -⟩⟩
    · simp [hown.2, hp, hi, Form32.isa_of_not_passes hp]
    · cases h; exact .inr (.inl ⟨_, _, rfl, hw.1, hw.2.1, hw.2.2.1⟩)
  · rcases access32_next_cases h with ⟨h1, ⟨rfl, hp⟩ | ⟨h, -, h3⟩⟩
    · simp [hown.2, hp, hi, Form32.isa_of_not_passes hp]
    · split at h <;> cases h
      exact .inr (.inr (.inr (.inl ⟨_, _, rfl, h1 ▸ form.isa_ne_a64, hi.trans h1.symm, by simpa using h3,
        hw.1, hw.2.1, hw.2.2.1⟩)))
  · rcases access32_next_cases h with ⟨-, ⟨rfl, hp⟩ | ⟨h, -⟩⟩
    · simp [hown.2, hp, hi, Form32.isa_of_not_passes hp]
    · cases h; exact .inr (.inr (.inr (.inr (.inl ⟨rfl, hwhich⟩))))
  · cases h

end Sys2Proof.Machine
end

