-- ==== Sys2Proof/Laws/FpClass.lean ====
section
/-! SUPPORT. What the operations of the floating-point class can do: the controls an operation is run with, the NaNs of the
formats, and the status it leaves. -/

namespace Sys2Proof.Machine

/-! The controls an operation is run with. -/

/-- AHP reaches the half-precision conversions alone (R153). -/
theorem fpControl_ahp (op : FpOperation) (s : State) :
    (fpControl op s).ahp = (s.f.control.ahp && op.kind.convertsHalf) := by
  simp only [fpControl]
  cases hi : s.ctx.isa <;> cases hc : op.cls <;> simp [effectiveControl, Isa.execState]

/-- Default NaN is in force where DN is 1 and in AArch32 Advanced SIMD (R154, R158). -/
theorem fpControl_dn (op : FpOperation) (s : State) :
    (fpControl op s).dn = true ↔ s.f.control.dn = true ∨ (s.ctx.isa ≠ .a64 ∧ op.cls = .advSimd) := by
  simp only [fpControl]
  cases hi : s.ctx.isa <;> cases hc : op.cls <;> simp [effectiveControl, Isa.execState]

/-- The format of the operands depends on AHP in a half-precision conversion alone. -/
@[simp] theorem FpKind.source_and_convertsHalf (kind : FpKind) (ahp : Bool) :
    kind.source (ahp && kind.convertsHalf) = kind.source ahp := by
  cases kind <;> simp [FpKind.source, FpKind.convertsHalf]

/-- The format of the result depends on AHP in a half-precision conversion alone. -/
@[simp] theorem FpKind.result_and_convertsHalf (kind : FpKind) (ahp : Bool) :
    kind.result (ahp && kind.convertsHalf) = kind.result ahp := by
  cases kind <;> simp [FpKind.result, FpKind.convertsHalf]

/-! The formats (R168). -/

/-- Only the alternative half-precision format has no infinities and NaNs. -/
theorem FpFormat.hasSpecials_iff (format : FpFormat) : format.hasSpecials = true ↔ format ≠ .altHalf := by
  cases format <;> simp [FpFormat.hasSpecials]

/-- The NaNs of a format that has them. -/
theorem FpFormat.isNaN_iff {format : FpFormat} (h : format.hasSpecials = true) (x : DWord) :
    format.isNaN x = true ↔ format.exponent x = 2 ^ format.exponentBits - 1 ∧ format.fraction x ≠ 0 := by
  simp only [FpFormat.isNaN, FpFormat.value, h, Bool.true_and]
  by_cases he : format.exponent x = 2 ^ format.exponentBits - 1 <;> by_cases hf : format.fraction x = 0 <;>
    simp [he, hf]
  all_goals split <;> simp

/-- The infinities of a format that has them. -/
theorem FpFormat.value_eq_infinity_iff {format : FpFormat} (h : format.hasSpecials = true) (x : DWord) :
    format.value x = .infinity (format.sign x) ↔
      format.exponent x = 2 ^ format.exponentBits - 1 ∧ format.fraction x = 0 := by
  simp only [FpFormat.value, h, Bool.true_and]
  by_cases he : format.exponent x = 2 ^ format.exponentBits - 1 <;> by_cases hf : format.fraction x = 0 <;>
    simp [he, hf]
  all_goals split <;> simp

/-- A NaN bit by bit: fraction, exponent of ones, sign. -/
theorem FpFormat.nanOf_getLsbD {format : FpFormat} {fraction : Nat} (sign : Bool)
    (h : fraction < 2 ^ format.fractionBits) (i : Nat) :
    (format.nanOf sign fraction).getLsbD i =
      if i < format.fractionBits then fraction.testBit i
      else if i < format.fractionBits + format.exponentBits then true
      else decide (i = format.fractionBits + format.exponentBits) && sign := by
  have hw : format.fractionBits + format.exponentBits < 64 := by
    rcases format with _ | _ | _ | _ <;> decide
  rw [FpFormat.nanOf, BitVec.getLsbD_ofNat, Nat.testBit_two_pow_mul_add _ h]
  by_cases h1 : i < format.fractionBits
  · simp [h1]; omega
  · rw [if_neg h1, if_neg h1, Nat.testBit_two_pow_mul_add _ (Nat.sub_lt (by positivity) (by decide)),
      Nat.testBit_two_pow_sub_one]
    by_cases h2 : i < format.fractionBits + format.exponentBits
    · simp [h2, show i < 64 by omega, show i - format.fractionBits < format.exponentBits by omega]
    · rw [if_neg (by omega), if_neg h2]
      by_cases h3 : i = format.fractionBits + format.exponentBits
      · subst h3; cases sign <;> simp; omega
      · obtain ⟨n, hn⟩ : ∃ n, i - format.fractionBits - format.exponentBits = n + 1 :=
          Nat.exists_eq_add_one_of_ne_zero (by omega)
        cases sign <;> simp [h3, hn, Nat.testBit_succ]

/-- Bits of the fraction field. -/
theorem FpFormat.fraction_testBit (format : FpFormat) (x : DWord) (i : Nat) :
    (format.fraction x).testBit i = (decide (i < format.fractionBits) && x.getLsbD i) := by
  simp [FpFormat.fraction, ← BitVec.getLsbD.eq_1]

/-- The fraction field is one. -/
theorem FpFormat.fraction_lt (format : FpFormat) (x : DWord) : format.fraction x < 2 ^ format.fractionBits :=
  BitVec.isLt _

/-- The sign of a NaN. -/
theorem FpFormat.sign_nanOf {format : FpFormat} {fraction : Nat} (sign : Bool) (h : fraction < 2 ^ format.fractionBits) :
    format.sign (format.nanOf sign fraction) = sign := by
  rw [FpFormat.sign, FpFormat.nanOf_getLsbD sign h, if_neg (by omega), if_neg (by omega)]
  simp

/-- A fraction that is not 0 makes a NaN. -/
theorem FpFormat.isNaN_nanOf {format : FpFormat} {fraction : Nat} (hs : format.hasSpecials = true) (sign : Bool)
    (h : fraction < 2 ^ format.fractionBits) (h0 : fraction ≠ 0) : format.isNaN (format.nanOf sign fraction) = true := by
  rw [FpFormat.isNaN_iff hs]
  constructor
  · refine Nat.eq_of_testBit_eq fun i => ?_
    rw [FpFormat.exponent, ← BitVec.getLsbD.eq_1, BitVec.getLsbD_extractLsb', FpFormat.nanOf_getLsbD sign h,
      Nat.testBit_two_pow_sub_one, if_neg (by omega)]
    by_cases hi : i < format.exponentBits
    · simp [hi]
    · simp [hi]
  · convert h0
    refine Nat.eq_of_testBit_eq fun i => ?_
    rw [FpFormat.fraction_testBit, FpFormat.nanOf_getLsbD sign h]
    by_cases hi : i < format.fractionBits
    · simp [hi]
    · simp [hi, Nat.testBit_lt_two_pow (h.trans_le (Nat.pow_le_pow_right (by decide) (Nat.le_of_not_lt hi)))]

/-- The bits of a `FreeNaN` are a NaN in every format that has NaNs. -/
theorem FpFormat.isNaN_freeNaN_bits {format : FpFormat} (h : format.hasSpecials = true) (nan : FreeNaN) :
    format.isNaN (nan.bits format) = true := by
  have := nan.half.isLt
  have := nan.single.isLt
  have := nan.double.isLt
  refine FpFormat.isNaN_nanOf h _ ?_ ?_ <;> rcases format with _ | _ | _ | _ <;>
    simp only [FreeNaN.fraction, FpFormat.fractionBits] <;> omega

/-- A carried fraction, counted from its most significant bit. -/
theorem FpFormat.carryFraction_testBit (src dst : FpFormat) (fraction low : Nat) {k : Nat}
    (hs : k ≤ src.fractionBits) (hd : k ≤ dst.fractionBits) :
    (src.carryFraction dst fraction low).testBit (dst.fractionBits - k) = fraction.testBit (src.fractionBits - k) := by
  unfold FpFormat.carryFraction
  split
  · rw [Nat.testBit_div_two_pow]; congr 1; omega
  · rw [Nat.testBit_two_pow_mul_add _ (Nat.mod_lt _ (by positivity)), if_neg (by omega)]; congr 1; omega

/-- A carried fraction fits its field. -/
theorem FpFormat.carryFraction_lt (src dst : FpFormat) {fraction : Nat} (low : Nat)
    (h : fraction < 2 ^ src.fractionBits) : src.carryFraction dst fraction low < 2 ^ dst.fractionBits := by
  unfold FpFormat.carryFraction
  split
  · rw [Nat.div_lt_iff_lt_mul (by positivity), ← pow_add]
    rwa [show dst.fractionBits + (src.fractionBits - dst.fractionBits) = src.fractionBits by omega]
  · have hl := Nat.mod_lt low (show 0 < 2 ^ (dst.fractionBits - src.fractionBits) by positivity)
    have hm := Nat.mul_le_mul_left (2 ^ (dst.fractionBits - src.fractionBits)) (Nat.succ_le_of_lt h)
    rw [← pow_add, show dst.fractionBits - src.fractionBits + src.fractionBits = dst.fractionBits by omega,
      Nat.mul_succ] at hm
    omega

/-- Everything a propagated NaN keeps of its operand (R154). -/
theorem NaNPropagation.propagates (propagation : NaNPropagation) (src : FpFormat) {dst : FpFormat} (x : DWord)
    (h : dst.hasSpecials = true) : Propagates src dst x (propagation.bits src dst x) := by
  have hpos : 1 ≤ dst.fractionBits ∧ 1 ≤ src.fractionBits := by
    rcases dst with _ | _ | _ | _ <;> rcases src with _ | _ | _ | _ <;> decide
  have hlt := src.carryFraction_lt dst propagation.low (src.fraction_lt x)
  have hbit {k : Nat} := @FpFormat.carryFraction_testBit src dst (src.fraction x) propagation.low k
  unfold NaNPropagation.bits
  generalize src.carryFraction dst (src.fraction x) propagation.low = c at hlt hbit
  have hq : c ||| 2 ^ (dst.fractionBits - 1) < 2 ^ dst.fractionBits :=
    Nat.or_lt_two_pow hlt (Nat.pow_lt_pow_right (by decide) (by omega))
  have hx {k : Nat} (h1 : 1 ≤ k) (hs : k ≤ src.fractionBits) :
      (src.fraction x).testBit (src.fractionBits - k) = x.getLsbD (src.fractionBits - k) := by
    rw [FpFormat.fraction_testBit, decide_eq_true (by omega), Bool.true_and]
  simp only []
  split
  · refine ⟨dst.isNaN_nanOf h _ hq ?_, dst.sign_nanOf _ hq, fun k h2 hs hd => ?_, fun _ => ?_⟩
    · exact fun h0 => by simpa using congrArg (Nat.testBit · (dst.fractionBits - 1)) h0
    · rw [dst.nanOf_getLsbD _ hq, if_pos (by omega), Nat.testBit_or, Nat.testBit_two_pow,
        decide_eq_false (by omega), Bool.or_false, hbit hs hd, hx (by omega) hs]
    · rw [dst.nanOf_getLsbD _ hq, if_pos (by omega), Nat.testBit_or, Nat.testBit_two_pow_self, Bool.or_true]
  · rename_i hc
    simp only [Bool.or_eq_true, beq_iff_eq, not_or] at hc
    refine ⟨dst.isNaN_nanOf h _ hlt hc.2, dst.sign_nanOf _ hlt, fun k h2 hs hd => ?_, fun hk => ?_⟩
    · rw [dst.nanOf_getLsbD _ hlt, if_pos (by omega), hbit hs hd, hx (by omega) hs]
    · rw [dst.nanOf_getLsbD _ hlt, if_pos (by omega), hbit hpos.2 hpos.1, hx (by omega) hpos.2, hk]

/-! An element of the result from a NaN operand (R154). -/

/-- An element that some NaN operand reaches: the Default NaN, or one of those operands propagated. -/
theorem FpOperation.nanElement_eq {op : FpOperation} {control : FpControl} {src : FpFormat} {operands : List DWord}
    {x : DWord} (propagation : NaNPropagation) (dst : FpFormat) (hs : op.kind.source control.ahp = some src)
    (hx : x ∈ operands) (hn : src.isNaN x = true) :
    ∃ y ∈ operands, src.isNaN y = true ∧ op.nanElement control propagation operands dst =
      some (if control.dn then Config.defaultNaN.bits dst else propagation.bits src dst y) := by
  have hnans : op.nansAmong control operands = operands.filter src.isNaN := by simp [FpOperation.nansAmong, hs]
  have hmem : x ∈ op.nansAmong control operands := hnans ▸ List.mem_filter.mpr ⟨hx, hn⟩
  have hlen := Nat.mod_lt propagation.operand (List.length_pos_of_mem hmem)
  have hy := List.getElem_mem hlen
  have sub {y : DWord} (h : y ∈ op.nansAmong control operands) : y ∈ operands.filter src.isNaN := by rwa [← hnans]
  refine ⟨(op.nansAmong control operands)[propagation.operand % (op.nansAmong control operands).length], ?_, ?_, ?_⟩
  · exact (List.mem_filter.mp (sub hy)).1
  · exact (List.mem_filter.mp (sub hy)).2
  · simp [FpOperation.nanElement, hs, hlen]

/-! Comparisons (R162). -/

/-- A comparison without a NaN operand is not unordered. -/
@[simp] theorem OrderedComparison.result_ne_unordered (result : OrderedComparison) : result.result ≠ .unordered := by
  cases result <;> simp [OrderedComparison.result]

/-- One or more operands are NaNs, where the operands are floating-point numbers. -/
theorem FpOperation.hasNaN_iff {op : FpOperation} {control : FpControl} {src : FpFormat}
    (hs : op.kind.source control.ahp = some src) :
    op.hasNaN control = true ↔ ∃ operands ∈ op.elements, ∃ x ∈ operands, src.isNaN x = true := by
  simp [FpOperation.hasNaN, FpOperation.nansAmong, hs]

/-- An operation that compares is unordered exactly where an operand is a NaN. -/
theorem fpComparison_eq_unordered_iff (op : FpOperation) (s : State) :
    fpComparison op s = some .unordered ↔ op.compares = true ∧ op.hasNaN (fpControl op s) = true := by
  cases hc : op.compares <;> cases hn : op.hasNaN (fpControl op s) <;> simp [fpComparison, hc, hn]

/-! The status an operation leaves. -/

/-- Only the field store and PSTATE can change. -/
theorem State.recordStatus_eq (s : State) (op : FpOperation) :
    s.recordStatus op = { s with f := (s.recordStatus op).f, pstate := (s.recordStatus op).pstate } := by
  unfold State.recordStatus State.writeComparison
  cases fpComparison op s
  · rfl
  · cases hi : s.ctx.isa.execState <;> simp [hi]

/-- No control field changes (R157). -/
@[simp] theorem State.recordStatus_control (s : State) (op : FpOperation) :
    (s.recordStatus op).f.control = s.f.control := by
  simp only [State.recordStatus]
  split <;> simp [FieldStore.raiseExceptions, FieldStore.recordSaturation]

/-- Where an operation completes, and with what. -/
theorem fpOperation_next {op : FpOperation} {s : State} (he : dataProcessingEnabled s = true)
    (hv : shortVectorSelected s = false) : fpOperation op s = .next (fpResult op s, s.recordStatus op) := by
  simp [fpOperation, he, hv]

end Sys2Proof.Machine
end

