-- ==== Sys2Proof/Laws/PerInstr.lean ====
section
/-! SUPPORT. The family TableRow: every instruction's word has the fixed bits of its row of spec/opcode_table.json. -/

namespace Sys2Proof.Laws.TableRow

/-- The `match` and `mask` of an instruction's row. -/
def row : Instr → Word × Word
  | .mrsFpcr _ => (0xD53B4400#32, 0xFFFFFFE0#32)
  | .msrFpcr _ => (0xD51B4400#32, 0xFFFFFFE0#32)
  | .mrsFpsr _ => (0xD53B4420#32, 0xFFFFFFE0#32)
  | .msrFpsr _ => (0xD51B4420#32, 0xFFFFFFE0#32)
  | .mrsMvfr0El1 _ => (0xD5380300#32, 0xFFFFFFE0#32)
  | .msrMvfr0El1 _ => (0xD5180300#32, 0xFFFFFFE0#32)
  | .mrsMvfr1El1 _ => (0xD5380320#32, 0xFFFFFFE0#32)
  | .msrMvfr1El1 _ => (0xD5180320#32, 0xFFFFFFE0#32)
  | .mrsMvfr2El1 _ => (0xD5380340#32, 0xFFFFFFE0#32)
  | .msrMvfr2El1 _ => (0xD5180340#32, 0xFFFFFFE0#32)
  | .mrsFpexc32El2 _ => (0xD53C5300#32, 0xFFFFFFE0#32)
  | .msrFpexc32El2 _ => (0xD51C5300#32, 0xFFFFFFE0#32)
  | .mrsIdAa64pfr0El1 _ => (0xD5380400#32, 0xFFFFFFE0#32)
  | .vmrsFpsidA32 _ _ => (0x0EF00A10#32, 0x0FFF0FFF#32)
  | .vmsrFpsidA32 _ _ => (0x0EE00A10#32, 0x0FFF0FFF#32)
  | .vmrsApsrFpscrA32 _ => (0x0EF1FA10#32, 0x0FFFFFFF#32)
  | .vmrsFpscrA32 _ _ => (0x0EF10A10#32, 0x0FFF0FFF#32)
  | .vmsrFpscrA32 _ _ => (0x0EE10A10#32, 0x0FFF0FFF#32)
  | .vmrsMvfr0A32 _ _ => (0x0EF70A10#32, 0x0FFF0FFF#32)
  | .vmsrMvfr0A32 _ _ => (0x0EE70A10#32, 0x0FFF0FFF#32)
  | .vmrsMvfr1A32 _ _ => (0x0EF60A10#32, 0x0FFF0FFF#32)
  | .vmsrMvfr1A32 _ _ => (0x0EE60A10#32, 0x0FFF0FFF#32)
  | .vmrsMvfr2A32 _ _ => (0x0EF50A10#32, 0x0FFF0FFF#32)
  | .vmsrMvfr2A32 _ _ => (0x0EE50A10#32, 0x0FFF0FFF#32)
  | .vmrsFpexcA32 _ _ => (0x0EF80A10#32, 0x0FFF0FFF#32)
  | .vmsrFpexcA32 _ _ => (0x0EE80A10#32, 0x0FFF0FFF#32)
  | .vmrsFpinstA32 _ _ => (0x0EF90A10#32, 0x0FFF0FFF#32)
  | .vmsrFpinstA32 _ _ => (0x0EE90A10#32, 0x0FFF0FFF#32)
  | .vmrsFpinst2A32 _ _ => (0x0EFA0A10#32, 0x0FFF0FFF#32)
  | .vmsrFpinst2A32 _ _ => (0x0EEA0A10#32, 0x0FFF0FFF#32)
  | .vmrsFpsidT32 _ => (0xEEF00A10#32, 0xFFFF0FFF#32)
  | .vmsrFpsidT32 _ => (0xEEE00A10#32, 0xFFFF0FFF#32)
  | .vmrsApsrFpscrT32 => (0xEEF1FA10#32, 0xFFFFFFFF#32)
  | .vmrsFpscrT32 _ => (0xEEF10A10#32, 0xFFFF0FFF#32)
  | .vmsrFpscrT32 _ => (0xEEE10A10#32, 0xFFFF0FFF#32)
  | .vmrsMvfr0T32 _ => (0xEEF70A10#32, 0xFFFF0FFF#32)
  | .vmsrMvfr0T32 _ => (0xEEE70A10#32, 0xFFFF0FFF#32)
  | .vmrsMvfr1T32 _ => (0xEEF60A10#32, 0xFFFF0FFF#32)
  | .vmsrMvfr1T32 _ => (0xEEE60A10#32, 0xFFFF0FFF#32)
  | .vmrsMvfr2T32 _ => (0xEEF50A10#32, 0xFFFF0FFF#32)
  | .vmsrMvfr2T32 _ => (0xEEE50A10#32, 0xFFFF0FFF#32)
  | .vmrsFpexcT32 _ => (0xEEF80A10#32, 0xFFFF0FFF#32)
  | .vmsrFpexcT32 _ => (0xEEE80A10#32, 0xFFFF0FFF#32)
  | .vmrsFpinstT32 _ => (0xEEF90A10#32, 0xFFFF0FFF#32)
  | .vmsrFpinstT32 _ => (0xEEE90A10#32, 0xFFFF0FFF#32)
  | .vmrsFpinst2T32 _ => (0xEEFA0A10#32, 0xFFFF0FFF#32)
  | .vmsrFpinst2T32 _ => (0xEEEA0A10#32, 0xFFFF0FFF#32)

/-- The word of `i` carries its row's fixed bits. -/
def Statement (i : Instr) : Prop := encode i &&& (row i).2 = (row i).1

theorem mrsFpcr (rt : BitVec 5) : Statement (.mrsFpcr rt) := by
  revert rt; unfold Statement; decide
theorem msrFpcr (rt : BitVec 5) : Statement (.msrFpcr rt) := by
  revert rt; unfold Statement; decide
theorem mrsFpsr (rt : BitVec 5) : Statement (.mrsFpsr rt) := by
  revert rt; unfold Statement; decide
theorem msrFpsr (rt : BitVec 5) : Statement (.msrFpsr rt) := by
  revert rt; unfold Statement; decide
theorem mrsMvfr0El1 (rt : BitVec 5) : Statement (.mrsMvfr0El1 rt) := by
  revert rt; unfold Statement; decide
theorem msrMvfr0El1 (rt : BitVec 5) : Statement (.msrMvfr0El1 rt) := by
  revert rt; unfold Statement; decide
theorem mrsMvfr1El1 (rt : BitVec 5) : Statement (.mrsMvfr1El1 rt) := by
  revert rt; unfold Statement; decide
theorem msrMvfr1El1 (rt : BitVec 5) : Statement (.msrMvfr1El1 rt) := by
  revert rt; unfold Statement; decide
theorem mrsMvfr2El1 (rt : BitVec 5) : Statement (.mrsMvfr2El1 rt) := by
  revert rt; unfold Statement; decide
theorem msrMvfr2El1 (rt : BitVec 5) : Statement (.msrMvfr2El1 rt) := by
  revert rt; unfold Statement; decide
theorem mrsFpexc32El2 (rt : BitVec 5) : Statement (.mrsFpexc32El2 rt) := by
  revert rt; unfold Statement; decide
theorem msrFpexc32El2 (rt : BitVec 5) : Statement (.msrFpexc32El2 rt) := by
  revert rt; unfold Statement; decide
theorem mrsIdAa64pfr0El1 (rt : BitVec 5) : Statement (.mrsIdAa64pfr0El1 rt) := by
  revert rt; unfold Statement; decide
theorem vmrsFpsidA32 (cond rt : BitVec 4) : Statement (.vmrsFpsidA32 cond rt) := by
  revert cond rt; unfold Statement; decide
theorem vmsrFpsidA32 (cond rt : BitVec 4) : Statement (.vmsrFpsidA32 cond rt) := by
  revert cond rt; unfold Statement; decide
theorem vmrsApsrFpscrA32 (cond : BitVec 4) : Statement (.vmrsApsrFpscrA32 cond) := by
  revert cond; unfold Statement; decide
theorem vmrsFpscrA32 (cond rt : BitVec 4) : Statement (.vmrsFpscrA32 cond rt) := by
  revert cond rt; unfold Statement; decide
theorem vmsrFpscrA32 (cond rt : BitVec 4) : Statement (.vmsrFpscrA32 cond rt) := by
  revert cond rt; unfold Statement; decide
theorem vmrsMvfr0A32 (cond rt : BitVec 4) : Statement (.vmrsMvfr0A32 cond rt) := by
  revert cond rt; unfold Statement; decide
theorem vmsrMvfr0A32 (cond rt : BitVec 4) : Statement (.vmsrMvfr0A32 cond rt) := by
  revert cond rt; unfold Statement; decide
theorem vmrsMvfr1A32 (cond rt : BitVec 4) : Statement (.vmrsMvfr1A32 cond rt) := by
  revert cond rt; unfold Statement; decide
theorem vmsrMvfr1A32 (cond rt : BitVec 4) : Statement (.vmsrMvfr1A32 cond rt) := by
  revert cond rt; unfold Statement; decide
theorem vmrsMvfr2A32 (cond rt : BitVec 4) : Statement (.vmrsMvfr2A32 cond rt) := by
  revert cond rt; unfold Statement; decide
theorem vmsrMvfr2A32 (cond rt : BitVec 4) : Statement (.vmsrMvfr2A32 cond rt) := by
  revert cond rt; unfold Statement; decide
theorem vmrsFpexcA32 (cond rt : BitVec 4) : Statement (.vmrsFpexcA32 cond rt) := by
  revert cond rt; unfold Statement; decide
theorem vmsrFpexcA32 (cond rt : BitVec 4) : Statement (.vmsrFpexcA32 cond rt) := by
  revert cond rt; unfold Statement; decide
theorem vmrsFpinstA32 (cond rt : BitVec 4) : Statement (.vmrsFpinstA32 cond rt) := by
  revert cond rt; unfold Statement; decide
theorem vmsrFpinstA32 (cond rt : BitVec 4) : Statement (.vmsrFpinstA32 cond rt) := by
  revert cond rt; unfold Statement; decide
theorem vmrsFpinst2A32 (cond rt : BitVec 4) : Statement (.vmrsFpinst2A32 cond rt) := by
  revert cond rt; unfold Statement; decide
theorem vmsrFpinst2A32 (cond rt : BitVec 4) : Statement (.vmsrFpinst2A32 cond rt) := by
  revert cond rt; unfold Statement; decide
theorem vmrsFpsidT32 (rt : BitVec 4) : Statement (.vmrsFpsidT32 rt) := by
  revert rt; unfold Statement; decide
theorem vmsrFpsidT32 (rt : BitVec 4) : Statement (.vmsrFpsidT32 rt) := by
  revert rt; unfold Statement; decide
theorem vmrsApsrFpscrT32 : Statement .vmrsApsrFpscrT32 := by
  unfold Statement; decide
theorem vmrsFpscrT32 (rt : BitVec 4) : Statement (.vmrsFpscrT32 rt) := by
  revert rt; unfold Statement; decide
theorem vmsrFpscrT32 (rt : BitVec 4) : Statement (.vmsrFpscrT32 rt) := by
  revert rt; unfold Statement; decide
theorem vmrsMvfr0T32 (rt : BitVec 4) : Statement (.vmrsMvfr0T32 rt) := by
  revert rt; unfold Statement; decide
theorem vmsrMvfr0T32 (rt : BitVec 4) : Statement (.vmsrMvfr0T32 rt) := by
  revert rt; unfold Statement; decide
theorem vmrsMvfr1T32 (rt : BitVec 4) : Statement (.vmrsMvfr1T32 rt) := by
  revert rt; unfold Statement; decide
theorem vmsrMvfr1T32 (rt : BitVec 4) : Statement (.vmsrMvfr1T32 rt) := by
  revert rt; unfold Statement; decide
theorem vmrsMvfr2T32 (rt : BitVec 4) : Statement (.vmrsMvfr2T32 rt) := by
  revert rt; unfold Statement; decide
theorem vmsrMvfr2T32 (rt : BitVec 4) : Statement (.vmsrMvfr2T32 rt) := by
  revert rt; unfold Statement; decide
theorem vmrsFpexcT32 (rt : BitVec 4) : Statement (.vmrsFpexcT32 rt) := by
  revert rt; unfold Statement; decide
theorem vmsrFpexcT32 (rt : BitVec 4) : Statement (.vmsrFpexcT32 rt) := by
  revert rt; unfold Statement; decide
theorem vmrsFpinstT32 (rt : BitVec 4) : Statement (.vmrsFpinstT32 rt) := by
  revert rt; unfold Statement; decide
theorem vmsrFpinstT32 (rt : BitVec 4) : Statement (.vmsrFpinstT32 rt) := by
  revert rt; unfold Statement; decide
theorem vmrsFpinst2T32 (rt : BitVec 4) : Statement (.vmrsFpinst2T32 rt) := by
  revert rt; unfold Statement; decide
theorem vmsrFpinst2T32 (rt : BitVec 4) : Statement (.vmsrFpinst2T32 rt) := by
  revert rt; unfold Statement; decide

end Sys2Proof.Laws.TableRow
end

