-- ==== Sys2Proof/Tests/Slice0.lean ====
section
/-! SUPPORT. The model's own tests: ill-formed terms, words written out from the spec's encodings, the vectors of
spec/95_test_vectors.md (those on reserved bits under both values of `P_RES_WRITE`), and for each obligation with hypotheses a state and operands
that meet them. -/

namespace Sys2Proof.Tests

open Sys2Proof.Machine

/-! Helpers: small states, and one step on a word placed at the program counter. -/

/-- Reset state at an AArch64 level, every level AArch64. -/
def at64 (el : El) : State := State.resetIn ⟨.a64, el, false⟩ 0x1000#64 Platform.reset

/-- Reset state of A32 or T32 at a Secure level, EL0 and EL1 AArch32, with a value of EN. -/
def at32 (isa : Isa) (el : El) (en : Bool) : State :=
  { State.resetIn ⟨isa, el, true⟩ 0x1000#64
      { Platform.reset with elState := ⟨.aarch32, .aarch32, .aarch64, .aarch64⟩ } with en := en }

/-- No enable of the open parameters granted (A26 of the spec's vectors). -/
def denied (s : State) : State :=
  { s with platform := { s.platform with
      a64FpEnabled := everyContext false
      a32FpEnabled := ⟨everyContext false, everyContext false, everyContext false, everyContext false, everyContext false,
        everyContext false⟩ } }

/-- `P_RES_WRITE = refuse`, the default of the spec's vectors (D3). -/
def refusing (s : State) : State := { s with platform := { s.platform with resWrite := .refuse } }

/-- The state with a value in X1. -/
def x1 (s : State) (v : DWord) : State := { s with x := s.x.set 1 v }

/-- The state with a value in R1. -/
def r1 (s : State) (v : Word) : State := { s with r := s.r.set 1 v }

/-- A field store written from a FPSCR word. -/
def store (s : State) (w : Word) : State := { s with f := writeFpscr w s.f }

/-- The state with a word of its own instruction set at the program counter. -/
def holding (s : State) (w : Word) : State :=
  { s with mem := s.mem.writeBytes s.fetchAddr (bytesOfWord s.ctx.isa w) }

/-- What one step of a word leaves, looked at through `see`. -/
def leaves {α : Type} (s : State) (w : Word) (see : State → α) : Option α :=
  match step (holding s w) with
  | .next t => some (see t)
  | _ => none

/-- The fault one step of a word ends in. -/
def faultOf (s : State) (w : Word) : Option Fault :=
  match step (holding s w) with
  | .fault r => some r
  | _ => none

/-- The refusal one step of a word ends in. -/
def refusalOf (s : State) (w : Word) : Option Refusal :=
  match step (holding s w) with
  | .refused r => some r
  | _ => none

/-- A decoded instruction, if any. -/
def decoded (isa : Isa) (w : Word) : Option Instr := (decodeWord isa w).toOption

/-! Well-formedness: a term that each check refuses. -/

theorem test_wf_cond_1111_refused : (Instr.vmrsFpscrA32 0b1111#4 0#4).wf = false := by decide
theorem test_wf_apsr_cond_1111_refused : (Instr.vmrsApsrFpscrA32 0b1111#4).wf = false := by decide
theorem test_wf_a32_rt15_refused : (Instr.vmrsFpsidA32 0b1110#4 15#4).wf = false := by decide
theorem test_wf_t32_rt13_refused : (Instr.vmsrFpscrT32 13#4).wf = false := by decide
theorem test_wf_t32_rt15_refused : (Instr.vmrsMvfr0T32 15#4).wf = false := by decide
theorem test_wf_a32_rt13_admitted : (Instr.vmrsFpscrA32 0b0000#4 13#4).wf = true := by decide

/-! Decoding: each constructor's word, written out field by field from R92 and R93, R94 and R96, R95. -/

theorem test_decode_a64_words :
    decoded .a64 0b1101010100_1_1_1_011_0100_0100_000_00101#32 = some (.mrsFpcr 5#5) ∧
    decoded .a64 0b1101010100_0_1_1_011_0100_0100_000_00101#32 = some (.msrFpcr 5#5) ∧
    decoded .a64 0b1101010100_1_1_1_011_0100_0100_001_00101#32 = some (.mrsFpsr 5#5) ∧
    decoded .a64 0b1101010100_0_1_1_011_0100_0100_001_00101#32 = some (.msrFpsr 5#5) ∧
    decoded .a64 0b1101010100_1_1_1_000_0000_0011_000_00101#32 = some (.mrsMvfr0El1 5#5) ∧
    decoded .a64 0b1101010100_0_1_1_000_0000_0011_000_00101#32 = some (.msrMvfr0El1 5#5) ∧
    decoded .a64 0b1101010100_1_1_1_000_0000_0011_001_00101#32 = some (.mrsMvfr1El1 5#5) ∧
    decoded .a64 0b1101010100_0_1_1_000_0000_0011_001_00101#32 = some (.msrMvfr1El1 5#5) ∧
    decoded .a64 0b1101010100_1_1_1_000_0000_0011_010_00101#32 = some (.mrsMvfr2El1 5#5) ∧
    decoded .a64 0b1101010100_0_1_1_000_0000_0011_010_00101#32 = some (.msrMvfr2El1 5#5) ∧
    decoded .a64 0b1101010100_1_1_1_100_0101_0011_000_00101#32 = some (.mrsFpexc32El2 5#5) ∧
    decoded .a64 0b1101010100_0_1_1_100_0101_0011_000_00101#32 = some (.msrFpexc32El2 5#5) ∧
    decoded .a64 0b1101010100_1_1_1_000_0000_0100_000_00101#32 = some (.mrsIdAa64pfr0El1 5#5) := by
  decide

theorem test_decode_a32_vmrs_words :
    decoded .a32 0b0001_1110111_1_0000_1110_1010_000_1_0000#32 = some (.vmrsFpsidA32 0b0001#4 14#4) ∧
    decoded .a32 0b0001_1110111_1_0111_1110_1010_000_1_0000#32 = some (.vmrsMvfr0A32 0b0001#4 14#4) ∧
    decoded .a32 0b0001_1110111_1_0110_1110_1010_000_1_0000#32 = some (.vmrsMvfr1A32 0b0001#4 14#4) ∧
    decoded .a32 0b0001_1110111_1_0101_1110_1010_000_1_0000#32 = some (.vmrsMvfr2A32 0b0001#4 14#4) ∧
    decoded .a32 0b0001_1110111_1_1000_1110_1010_000_1_0000#32 = some (.vmrsFpexcA32 0b0001#4 14#4) ∧
    decoded .a32 0b0001_1110111_1_1001_1110_1010_000_1_0000#32 = some (.vmrsFpinstA32 0b0001#4 14#4) ∧
    decoded .a32 0b0001_1110111_1_1010_1110_1010_000_1_0000#32 = some (.vmrsFpinst2A32 0b0001#4 14#4) ∧
    decoded .a32 0b0001_1110111_1_0001_1110_1010_000_1_0000#32 = some (.vmrsFpscrA32 0b0001#4 14#4) ∧
    decoded .a32 0b0001_1110111_1_0001_1111_1010_000_1_0000#32 = some (.vmrsApsrFpscrA32 0b0001#4) := by
  decide

theorem test_decode_a32_vmsr_words :
    decoded .a32 0b0001_1110111_0_0000_1110_1010_000_1_0000#32 = some (.vmsrFpsidA32 0b0001#4 14#4) ∧
    decoded .a32 0b0001_1110111_0_0111_1110_1010_000_1_0000#32 = some (.vmsrMvfr0A32 0b0001#4 14#4) ∧
    decoded .a32 0b0001_1110111_0_0110_1110_1010_000_1_0000#32 = some (.vmsrMvfr1A32 0b0001#4 14#4) ∧
    decoded .a32 0b0001_1110111_0_0101_1110_1010_000_1_0000#32 = some (.vmsrMvfr2A32 0b0001#4 14#4) ∧
    decoded .a32 0b0001_1110111_0_1000_1110_1010_000_1_0000#32 = some (.vmsrFpexcA32 0b0001#4 14#4) ∧
    decoded .a32 0b0001_1110111_0_1001_1110_1010_000_1_0000#32 = some (.vmsrFpinstA32 0b0001#4 14#4) ∧
    decoded .a32 0b0001_1110111_0_1010_1110_1010_000_1_0000#32 = some (.vmsrFpinst2A32 0b0001#4 14#4) ∧
    decoded .a32 0b0001_1110111_0_0001_1110_1010_000_1_0000#32 = some (.vmsrFpscrA32 0b0001#4 14#4) := by
  decide

theorem test_decode_t32_vmrs_words :
    decoded .t32 0b1110_1110111_1_0000_1100_1010_000_1_0000#32 = some (.vmrsFpsidT32 12#4) ∧
    decoded .t32 0b1110_1110111_1_0111_1100_1010_000_1_0000#32 = some (.vmrsMvfr0T32 12#4) ∧
    decoded .t32 0b1110_1110111_1_0110_1100_1010_000_1_0000#32 = some (.vmrsMvfr1T32 12#4) ∧
    decoded .t32 0b1110_1110111_1_0101_1100_1010_000_1_0000#32 = some (.vmrsMvfr2T32 12#4) ∧
    decoded .t32 0b1110_1110111_1_1000_1100_1010_000_1_0000#32 = some (.vmrsFpexcT32 12#4) ∧
    decoded .t32 0b1110_1110111_1_1001_1100_1010_000_1_0000#32 = some (.vmrsFpinstT32 12#4) ∧
    decoded .t32 0b1110_1110111_1_1010_1100_1010_000_1_0000#32 = some (.vmrsFpinst2T32 12#4) ∧
    decoded .t32 0b1110_1110111_1_0001_1100_1010_000_1_0000#32 = some (.vmrsFpscrT32 12#4) ∧
    decoded .t32 0b1110_1110111_1_0001_1111_1010_000_1_0000#32 = some .vmrsApsrFpscrT32 := by
  decide

theorem test_decode_t32_vmsr_words :
    decoded .t32 0b1110_1110111_0_0000_1100_1010_000_1_0000#32 = some (.vmsrFpsidT32 12#4) ∧
    decoded .t32 0b1110_1110111_0_0111_1100_1010_000_1_0000#32 = some (.vmsrMvfr0T32 12#4) ∧
    decoded .t32 0b1110_1110111_0_0110_1100_1010_000_1_0000#32 = some (.vmsrMvfr1T32 12#4) ∧
    decoded .t32 0b1110_1110111_0_0101_1100_1010_000_1_0000#32 = some (.vmsrMvfr2T32 12#4) ∧
    decoded .t32 0b1110_1110111_0_1000_1100_1010_000_1_0000#32 = some (.vmsrFpexcT32 12#4) ∧
    decoded .t32 0b1110_1110111_0_1001_1100_1010_000_1_0000#32 = some (.vmsrFpinstT32 12#4) ∧
    decoded .t32 0b1110_1110111_0_1010_1100_1010_000_1_0000#32 = some (.vmsrFpinst2T32 12#4) ∧
    decoded .t32 0b1110_1110111_0_0001_1100_1010_000_1_0000#32 = some (.vmsrFpscrT32 12#4) := by
  decide

/-- B25's bytes: F1 EE 10 0A. -/
theorem test_decode_t32_bytes :
    (decodeBytes .t32 [0xF1#8, 0xEE#8, 0x10#8, 0x0A#8]).toOption = some (.vmrsFpscrT32 0#4) := by
  decide

/-- A27, B22 and B24: not in source, and an excluded register number. -/
theorem test_decode_refusals :
    refusalOf (at64 .el1) 0xD53B4440#32 = some (.notInSource 0xD53B4440#32) ∧
    refusalOf (at32 .a32 .el1 true) 0xEEF0FA10#32 = some (.rtNotPermitted 0xEEF0FA10#32) ∧
    refusalOf (at32 .a32 .el1 true) 0xEEF20A10#32 = some (.notInSource 0xEEF20A10#32) := by
  decide

/-- The opcode table's numbers: an A64 row, an A32 row (condition field 0), a T32 row. -/
theorem test_table_numbers :
    decodeTableWord 32 0xD53C5300 = some (.mrsFpexc32El2 0#5) ∧
    decodeTableWord 32 0x0EF80A10 = some (.vmrsFpexcA32 0#4 0#4) ∧
    decodeTableWord 32 0xEEF80A10 = some (.vmrsFpexcT32 0#4) := by
  decide

/-- A placed number is the first instruction after reset (log 5). -/
theorem test_first_instruction_after_reset :
    (match step (State.reset.withFetchWord 32 0xD53C5300) with | .next t => some t.x[0] | _ => none) = some 0x700#64 ∧
    (match step (State.reset.withFetchWord 32 0xEEF00A10) with | .next t => some t.r[0] | _ => none)
      = some 0x41034034#32 ∧
    (match step (State.reset.withFetchWord 32 0x1EF00A10) with | .next t => some t.r[0] | _ => none)
      = some 0x41034034#32 := by
  decide

/-! The vectors of the A64 family. -/

/-- A1 and A3. -/
theorem test_mrsFpcr :
    leaves (at64 .el0) 0xD53B4400#32 (fun t => (t.x[0], t.pc)) = some (0#64, 0x1004#64) ∧
    leaves (store (at64 .el0) 0x07C00000#32) 0xD53B4405#32 (fun t => t.x[5]) = some 0x07C00000#64 := by
  decide

/-- A26. -/
theorem test_mrsFpcr_not_enabled :
    faultOf (denied (at64 .el0)) 0xD53B4400#32 = some (.undefinedInstruction (.a64 .fpcr) .read ⟨.a64, .el0, false⟩) := by
  decide

/-- A2 and A4. -/
theorem test_msrFpcr :
    leaves (x1 (at64 .el0) 0x07C00000#64) 0xD51B4401#32 (fun t => (t.f.control, fpsrView t.f)) =
      some (⟨true, true, true, .rz⟩, 0#32) ∧
    leaves (x1 (at64 .el0) 0x00800000#64) 0xD51B4401#32 (fun t => t.f.control) =
      some ⟨false, false, false, .rm⟩ := by
  decide

/-- A5, A6, A7 under `ignore` and `refuse`; a word with no reserved bit is accepted under `refuse`. -/
theorem test_msrFpcr_reserved_bits :
    leaves (x1 (at64 .el0) 0x100#64) 0xD51B4401#32 (fun t => t.f) = some FieldStore.reset ∧
    leaves (x1 (store (at64 .el0) 0x10#32) 0xFFFFFFFF#64) 0xD51B4401#32 (fun t => (fpcrView t.f, fpsrView t.f)) =
      some (0x07C00000#32, 0x10#32) ∧
    leaves (x1 (at64 .el0) 0x100000000#64) 0xD51B4401#32 (fun t => t.f) = some FieldStore.reset ∧
    refusalOf (refusing (x1 (at64 .el0) 0x100#64)) 0xD51B4401#32 = some (.reservedFieldWritten (.a64 .fpcr)) ∧
    refusalOf (refusing (x1 (at64 .el0) 0xFFFFFFFF#64)) 0xD51B4401#32 = some (.reservedFieldWritten (.a64 .fpcr)) ∧
    refusalOf (refusing (x1 (at64 .el0) 0x100000000#64)) 0xD51B4401#32 = some (.reservedFieldWritten (.a64 .fpcr)) ∧
    leaves (refusing (x1 (at64 .el0) 0x07C00000#64)) 0xD51B4401#32 (fun t => fpcrView t.f) = some 0x07C00000#32 := by
  decide

/-- A9, A12 and A13: zero extension, no bit cleared, XZR discards. -/
theorem test_mrsFpsr :
    leaves (store (at64 .el1) 0xF800009F#32) 0xD53B4423#32 (fun t => t.x[3]) = some 0xF800009F#64 ∧
    leaves (store (at64 .el1) 0x11#32) 0xD53B4420#32 (fun t => (t.x[0], fpsrView t.f)) = some (0x11#64, 0x11#32) ∧
    leaves (store (at64 .el1) 0x11#32) 0xD53B443F#32 (fun t => (t.x, t.pc)) = some ((at64 .el1).x, 0x1004#64) := by
  decide

/-- A8. -/
theorem test_msrFpsr :
    leaves (x1 (at64 .el1) 0xF800009F#64) 0xD51B4421#32 (fun t => (t.f.flags, t.f.qc, t.f.exc, fpcrView t.f)) =
      some (⟨true, true, true, true⟩, true, ⟨true, true, true, true, true, true⟩, 0#32) := by
  decide

/-- A10 and A11: XZR reads 0; bits [6:5] are RES0, under `ignore` and under `refuse`. -/
theorem test_msrFpsr_clears :
    leaves (store (at64 .el1) 0xFFC0009F#32) 0xD51B443F#32 (fun t => fpscrView t.f) = some 0x07C00000#32 ∧
    leaves (x1 (at64 .el1) 0x60#64) 0xD51B4421#32 (fun t => fpsrView t.f) = some 0#32 ∧
    refusalOf (refusing (x1 (at64 .el1) 0x60#64)) 0xD51B4421#32 = some (.reservedFieldWritten (.a64 .fpsr)) := by
  decide

/-- A15 and A14. -/
theorem test_mrsMvfr0El1 :
    leaves (at64 .el1) 0xD5380300#32 (fun t => t.x[0]) = some 0x10110222#64 ∧
    faultOf (at64 .el0) 0xD5380300#32 = some (.undefinedInstruction (.a64 .mvfr0El1) .read ⟨.a64, .el0, false⟩) := by
  decide

/-- A16. -/
theorem test_mrsMvfr1El1 : leaves (at64 .el1) 0xD5380321#32 (fun t => t.x[1]) = some 0x12111111#64 := by decide

/-- A17. -/
theorem test_mrsMvfr2El1 : leaves (at64 .el3) 0xD5380342#32 (fun t => t.x[2]) = some 0x43#64 := by decide

/-- A18 and its like (R122); `MSR ID_AA64PFR0_EL1` is no row of the table (R98). -/
theorem test_msrMvfr_refused :
    refusalOf (at64 .el1) 0xD5180300#32 = some (.readOnlyRegister (.a64 .mvfr0El1)) ∧
    refusalOf (at64 .el1) 0xD5180320#32 = some (.readOnlyRegister (.a64 .mvfr1El1)) ∧
    refusalOf (at64 .el1) 0xD5180340#32 = some (.readOnlyRegister (.a64 .mvfr2El1)) ∧
    refusalOf (at64 .el1) 0xD5180401#32 = some (.notInSource 0xD5180401#32) := by
  decide

/-- A20 and A19. -/
theorem test_mrsFpexc32El2 :
    leaves (at64 .el2) 0xD53C5300#32 (fun t => t.x[0]) = some 0x700#64 ∧
    faultOf (at64 .el1) 0xD53C5300#32 = some (.undefinedInstruction (.a64 .fpexc32El2) .read ⟨.a64, .el1, false⟩) := by
  decide

/-- A21 and A24. -/
theorem test_msrFpexc32El2 :
    leaves (x1 (at64 .el2) 0x40000700#64) 0xD51C5301#32 (fun t => (t.en, view64 t .fpexc32El2)) =
      some (true, 0x40000700#64) ∧
    leaves (x1 { at64 .el2 with en := true } 0x700#64) 0xD51C5301#32 (fun t => t.en) = some false := by
  decide

/-- A22 and A23: the RES1 and EX bits, dropped under `ignore` and refused under `refuse`. -/
theorem test_msrFpexc32El2_reserved_bits :
    leaves (x1 (at64 .el3) 0x40000000#64) 0xD51C5301#32 (fun t => view64 t .fpexc32El2) = some 0x40000700#64 ∧
    leaves (x1 (at64 .el3) 0xC0000700#64) 0xD51C5301#32 (fun t => view64 t .fpexc32El2) = some 0x40000700#64 ∧
    refusalOf (refusing (x1 (at64 .el3) 0x40000000#64)) 0xD51C5301#32 =
      some (.reservedFieldWritten (.a64 .fpexc32El2)) ∧
    refusalOf (refusing (x1 (at64 .el3) 0xC0000700#64)) 0xD51C5301#32 =
      some (.reservedFieldWritten (.a64 .fpexc32El2)) := by
  decide

/-- R121: the open value, and the access fault at EL0. -/
theorem test_mrsIdAa64pfr0El1 :
    leaves (at64 .el1) 0xD5380402#32 (fun t => t.x[2]) = some Config.idAa64pfr0 ∧
    faultOf (at64 .el0) 0xD5380402#32 =
      some (.undefinedInstruction (.a64 .idAa64pfr0El1) .read ⟨.a64, .el0, false⟩) := by
  exact ⟨rfl, rfl⟩

/-! The vectors of the A32 and T32 families. -/

/-- B1 and B2. -/
theorem test_vmrsFpsid :
    leaves (at32 .a32 .el1 false) 0xEEF00A10#32 (fun t => t.r[0]) = some 0x41034034#32 ∧
    leaves (at32 .t32 .el1 false) 0xEEF00A10#32 (fun t => t.r[0]) = some 0x41034034#32 ∧
    faultOf (at32 .a32 .el0 false) 0xEEF00A10#32 =
      some (.undefinedInstruction (.a32 .fpsid) .read ⟨.a32, .el0, true⟩) := by
  decide

/-- B3 and B6. -/
theorem test_vmrsFpexc :
    leaves (at32 .a32 .el1 false) 0xEEF80A10#32 (fun t => t.r[0]) = some 0x700#32 ∧
    leaves (at32 .t32 .el1 true) 0xEEF81A10#32 (fun t => t.r[1]) = some 0x40000700#32 := by
  decide

/-- B5, and B7 under `ignore` and `refuse`. -/
theorem test_vmsrFpexc :
    leaves (r1 (at32 .a32 .el1 false) 0x40000700#32) 0xEEE81A10#32 (fun t => t.en) = some true ∧
    leaves (r1 (at32 .t32 .el1 false) 0x40000000#32) 0xEEE81A10#32 (fun t => t.en) = some true ∧
    refusalOf (refusing (r1 (at32 .t32 .el1 false) 0x40000000#32)) 0xEEE81A10#32 =
      some (.reservedFieldWritten (.a32 .fpexc)) := by
  decide

/-- B8, B10, B14 and B25. -/
theorem test_vmrsFpscr :
    leaves (at32 .a32 .el0 true) 0xEEF10A10#32 (fun t => t.r[0]) = some 0#32 ∧
    leaves (store (at32 .a32 .el0 true) 0xFFC0009F#32) 0xEEF12A10#32 (fun t => t.r[2]) = some 0xFFC0009F#32 ∧
    leaves (store (at32 .a32 .el0 true) 0x80800001#32) 0xEEF12A10#32 (fun t => t.r[2]) = some 0x80800001#32 ∧
    leaves (at32 .t32 .el0 true) 0xEEF10A10#32 (fun t => (t.r[0], t.pc)) = some (0#32, 0x1004#64) := by
  decide

/-- B4: EN = 0 under an AArch32 EL1. -/
theorem test_vmrsFpscr_not_enabled :
    faultOf (at32 .a32 .el1 false) 0xEEF10A10#32 =
      some (.undefinedInstruction (.a32 .fpscr) .read ⟨.a32, .el1, true⟩) := by
  decide

/-- B9. -/
theorem test_vmsrFpscr :
    leaves (r1 (at32 .a32 .el0 true) 0xFFC0009F#32) 0xEEE11A10#32 (fun t => t.f) =
      some ⟨⟨true, true, true, true⟩, true, ⟨true, true, true, .rz⟩, ⟨true, true, true, true, true, true⟩⟩ ∧
    leaves (r1 (at32 .t32 .el0 true) 0xFFC0009F#32) 0xEEE11A10#32 (fun t => fpscrView t.f) = some 0xFFC0009F#32 := by
  decide

/-- B11, B12, B13 under `ignore` and `refuse`. -/
theorem test_vmsrFpscr_reserved_bits :
    leaves (r1 (at32 .a32 .el0 true) 0x00030000#32) 0xEEE11A10#32 (fun t => t.f) = some FieldStore.reset ∧
    leaves (r1 (at32 .a32 .el0 true) 0x00300000#32) 0xEEE11A10#32 (fun t => t.f) = some FieldStore.reset ∧
    leaves (r1 (at32 .a32 .el0 true) 0x00009F00#32) 0xEEE11A10#32 (fun t => fpscrView t.f) = some 0#32 ∧
    refusalOf (refusing (r1 (at32 .a32 .el0 true) 0x00030000#32)) 0xEEE11A10#32 =
      some (.reservedFieldWritten (.a32 .fpscr)) ∧
    refusalOf (refusing (r1 (at32 .t32 .el0 true) 0x00300000#32)) 0xEEE11A10#32 =
      some (.reservedFieldWritten (.a32 .fpscr)) ∧
    refusalOf (refusing (r1 (at32 .a32 .el0 true) 0x00009F00#32)) 0xEEE11A10#32 =
      some (.reservedFieldWritten (.a32 .fpscr)) := by
  decide

/-- B15 to B17. -/
theorem test_vmrsMvfr :
    leaves (at32 .a32 .el1 true) 0xEEF70A10#32 (fun t => t.r[0]) = some 0x10110222#32 ∧
    leaves (at32 .a32 .el1 true) 0xEEF61A10#32 (fun t => t.r[1]) = some 0x12111111#32 ∧
    leaves (at32 .a32 .el1 true) 0xEEF52A10#32 (fun t => t.r[2]) = some 0x43#32 ∧
    leaves (at32 .t32 .el1 true) 0xEEF70A10#32 (fun t => t.r[0]) = some 0x10110222#32 ∧
    leaves (at32 .t32 .el1 true) 0xEEF61A10#32 (fun t => t.r[1]) = some 0x12111111#32 ∧
    leaves (at32 .t32 .el1 true) 0xEEF52A10#32 (fun t => t.r[2]) = some 0x43#32 := by
  decide

/-- B18. -/
theorem test_vmrsMvfr_at_el0 :
    faultOf (at32 .a32 .el0 true) 0xEEF70A10#32 =
      some (.undefinedInstruction (.a32 .mvfr0) .read ⟨.a32, .el0, true⟩) := by
  decide

/-- B19. -/
theorem test_vmsr_read_only_refused :
    refusalOf (at32 .a32 .el1 true) 0xEEE70A10#32 = some (.readOnlyRegister (.a32 .mvfr0)) ∧
    refusalOf (at32 .a32 .el1 true) 0xEEE00A10#32 = some (.readOnlyRegister (.a32 .fpsid)) ∧
    refusalOf (at32 .t32 .el1 true) 0xEEE60A10#32 = some (.readOnlyRegister (.a32 .mvfr1)) ∧
    refusalOf (at32 .t32 .el1 true) 0xEEE50A10#32 = some (.readOnlyRegister (.a32 .mvfr2)) := by
  decide

/-- B20. -/
theorem test_fpinst_refused :
    refusalOf (at32 .a32 .el1 true) 0xEEF90A10#32 = some .fpinstUnpredictable ∧
    refusalOf (at32 .a32 .el1 true) 0xEEE90A10#32 = some .fpinstUnpredictable ∧
    refusalOf (at32 .t32 .el1 true) 0xEEFA0A10#32 = some .fpinstUnpredictable ∧
    refusalOf (at32 .t32 .el1 true) 0xEEEA0A10#32 = some .fpinstUnpredictable := by
  decide

/-- B21. -/
theorem test_vmrsApsrFpscr :
    leaves (store (at32 .a32 .el0 true) 0x30000000#32) 0xEEF1FA10#32 (fun t => (t.apsr.bits, t.r)) =
      some (0b0011#4, (at32 .a32 .el0 true).r) ∧
    leaves (store (at32 .t32 .el0 true) 0x30000000#32) 0xEEF1FA10#32 (fun t => t.apsr.bits) = some 0b0011#4 := by
  decide

/-- B23: EQ with Z = 0 is a no-op, with Z = 1 it runs. -/
theorem test_condition :
    leaves (r1 (at32 .a32 .el0 true) 7#32) 0x0EF11A10#32 (fun t => (t.r[1], t.pc)) = some (7#32, 0x1004#64) ∧
    leaves { r1 (at32 .a32 .el0 true) 7#32 with apsr := ⟨false, true, false, false⟩ } 0x0EF11A10#32 (fun t => t.r[1]) =
      some 0#32 := by
  decide

/-- W1 and W2: one store under two views. -/
theorem test_views :
    leaves (r1 (at32 .a32 .el0 true) 0xF8C0009F#32) 0xEEE11A10#32 (fun t => (view64 t .fpcr, view64 t .fpsr)) =
      some (0x00C00000#64, 0xF800009F#64) ∧
    leaves (x1 (store (at64 .el0) 0x03000000#32) 0x08000010#64) 0xD51B4421#32 (fun t => view32 t .fpscr) =
      some 0x0B000010#32 := by
  decide

/-- R73 and R23: a misaligned program counter, and nothing loaded. -/
theorem test_fetch_stops :
    refusalOf { at64 .el1 with pc := 0x1002#64 } 0xD53B4400#32 = some .pcMisaligned ∧
    leaves { at32 .t32 .el1 true with pc := 0x1002#64 } 0xEEF10A10#32 (fun t => t.pc) = some 0x1006#64 ∧
    (match step State.reset with | .fault r => some r | _ => none) = some (.fetchOutsideProgram 0#64) := by
  decide

/-! The formats of R168: 1.0, infinity, the most negative infinity, and NaNs, from IEEE 754's encodings. -/

theorem test_format_values :
    FpFormat.half.value 0x3C00#64 = .finite false 1024 (-10) ∧
    (FpFormat.arith .single).value 0xBF800000#64 = .finite true 8388608 (-23) ∧
    (FpFormat.arith .double).value 0x3FF0000000000000#64 = .finite false 4503599627370496 (-52) ∧
    (FpFormat.arith .single).value 0x00000001#64 = .finite false 1 (-149) ∧
    FpFormat.half.value 0xFC00#64 = .infinity true ∧
    FpFormat.altHalf.value 0x7C00#64 = .finite false 1024 6 := by
  decide

theorem test_format_nans :
    FpFormat.half.isNaN 0x7E00#64 = true ∧ (FpFormat.arith .single).isNaN 0x7FC00000#64 = true ∧
    (FpFormat.arith .double).isNaN 0x7FF8000000000000#64 = true ∧ (FpFormat.arith .single).isNaN 0x7F800000#64 = false ∧
    FpFormat.altHalf.isNaN 0x7FFF#64 = false := by
  decide

/-- A NaN operand at the output (R154): in its own format as it is or quieted, widened, and narrowed with nothing of its
fraction left, by hand from R168's fields. -/
theorem test_nan_propagation :
    (NaNPropagation.mk 0 false 0).bits (.arith .single) (.arith .single) 0xFF812345#64 = 0xFF812345#64 ∧
    (NaNPropagation.mk 0 true 0).bits (.arith .single) (.arith .single) 0xFF812345#64 = 0xFFC12345#64 ∧
    (NaNPropagation.mk 0 false 0).bits (.arith .single) (.arith .double) 0xFFC00001#64 = 0xFFF8000020000000#64 ∧
    (NaNPropagation.mk 0 false 0).bits (.arith .double) .half 0xFFF0000000000001#64 = 0xFE00#64 := by
  decide

/-! Witnesses: for each obligation with hypotheses, states and operands that meet them, clause by clause. -/

theorem witness_WordsOutsideTheSpecAreRefusedByName :
    (0x00000000#32 &&& 0xFFF00000#32 ≠ 0xD5300000#32 ∧ 0x00000000#32 &&& 0xFFF00000#32 ≠ 0xD5100000#32) ∧
    (∀ reg : SysReg64, selectorOf reg ≠ selectorField 0xD53B4440#32) ∧
    (0x0EF10A11#32 &&& 0x0FE00FFF#32 ≠ 0x0EE00A10#32 ∧ condField 0xFEF10A10#32 = 0b1111#4) ∧
    0xFEF10A10#32 &&& 0xFFE00FFF#32 ≠ 0xEEE00A10#32 ∧
    (regField 0xEEF20A10#32 ∉ [0#4, 1#4, 5#4, 6#4, 7#4, 8#4, 9#4, 10#4] ∧
      regField 0xEEFB0A10#32 ∉ [0#4, 1#4, 5#4, 6#4, 7#4, 8#4, 9#4, 10#4]) := by
  refine ⟨by decide, fun reg => ?_, by decide⟩
  cases reg <;> decide

theorem witness_ExcludedRegisterNumbersAreRefusedByTheDecoder :
    (0xEEF0FA10#32 &&& 0x0FE00FFF#32 = 0x0EE00A10#32 ∧ condField 0xEEF0FA10#32 ≠ 0b1111#4 ∧
      regField 0xEEF0FA10#32 ∈ [0#4, 1#4, 5#4, 6#4, 7#4, 8#4, 9#4, 10#4] ∧ rtField 0xEEF0FA10#32 = 15#4 ∧
      ¬ (lField 0xEEF0FA10#32 = true ∧ regField 0xEEF0FA10#32 = 1#4)) ∧
    (rtField 0xEEE1FA10#32 = 15#4 ∧ ¬ (lField 0xEEE1FA10#32 = true ∧ regField 0xEEE1FA10#32 = 1#4)) ∧
    (0xEEF1DA10#32 &&& 0xFFE00FFF#32 = 0xEEE00A10#32 ∧
      regField 0xEEF1DA10#32 ∈ [0#4, 1#4, 5#4, 6#4, 7#4, 8#4, 9#4, 10#4] ∧ rtField 0xEEF1DA10#32 = 13#4) := by
  decide

/-- Both values of the enable, and in AArch32 each register allowed and not allowed. -/
theorem witness_AccessRightsAreTheTables :
    a64FpAccessEnabled (denied (at64 .el1)) = false ∧ a64FpAccessEnabled (at64 .el1) = true ∧
    (at32 .t32 .el1 true).ctx.isa ≠ .a64 ∧
    (∀ reg ∈ [SysReg32.fpsid, .fpscr, .mvfr0, .mvfr1, .mvfr2, .fpexc],
      (at32 .t32 .el1 true).ctx.el ≠ .el0 ∧ Granted32 reg (at32 .t32 .el1 true)) ∧
    EnabledByEn (at32 .t32 .el1 true) ∧ ¬ EnabledByEn (at32 .t32 .el1 false) ∧
    ¬ Granted32 .fpscr (denied (at32 .a32 .el0 true)) ∧ (at32 .a32 .el0 true).ctx.el = .el0 := by
  unfold Granted32 EnabledByEn
  decide

/-- For MrsFpcrReadsTheControlFields, MrsFpsrReadsTheStatusFields, MrsMvfrReadsTheConstants, MrsFpexc32ReadsEn and
MrsIdAa64pfr0ReadsTheOpenValue: the levels where each register is allowed and is not. -/
theorem witness_Mrs :
    (at64 .el0).ctx.isa = .a64 ∧ a64FpAccessEnabled (at64 .el0) = true ∧ a64FpAccessEnabled (denied (at64 .el3)) = false ∧
    (a64FpAccessEnabled (at64 .el1) = true ∧ (at64 .el1).ctx.el ≠ .el0) ∧
    (a64FpAccessEnabled (at64 .el2) = true ∧ ((at64 .el2).ctx.el = .el2 ∨ (at64 .el2).ctx.el = .el3)) ∧
    ¬ ((at64 .el1).ctx.el = .el2 ∨ (at64 .el1).ctx.el = .el3) ∧
    (at64 .el0).f = FieldStore.reset ∧ (at64 .el2).en = false ∧ (at32 .a32 .el1 true).en = true := by
  decide

/-- For MsrFpcrWritesTheControlFields, MsrFpsrWritesTheStatusFields and MsrFpexc32WritesEn: a written register and XZR,
allowed and not. -/
theorem witness_Msr :
    (at64 .el2).ctx.isa = .a64 ∧ a64FpAccessEnabled (at64 .el2) = true ∧ (at64 .el2).ctx.el = .el2 ∧
    XHolds (x1 (at64 .el2) 0xFFFFFFFF40000700#64) 1#5 0xFFFFFFFF40000700#64 ∧ XHolds (at64 .el2) 30#5 0#64 ∧
    XHolds (at64 .el2) 31#5 0#64 ∧ a64FpAccessEnabled (denied (at64 .el2)) = false ∧
    ¬ ((at64 .el0).ctx.el = .el2 ∨ (at64 .el0).ctx.el = .el3) := by
  unfold XHolds
  decide

/-- For the same: every value is accepted under `ignore`, and under `refuse` those that keep the reserved positions, each
bit beside a writable one among the broken ones. -/
theorem witness_Msr_accepted :
    WriteAccepted (at64 .el2) 0xFFFFFFFFFFFFFFFF#64 0xFFFFFFFFF83FFFFF#64 0#64 ∧
    WriteAccepted (refusing (at64 .el2)) 0x07C00000#64 0xFFFFFFFFF83FFFFF#64 0#64 ∧
    ¬ WriteAccepted (refusing (at64 .el2)) 0x00200000#64 0xFFFFFFFFF83FFFFF#64 0#64 ∧
    ¬ WriteAccepted (refusing (at64 .el2)) 0x08000000#64 0xFFFFFFFFF83FFFFF#64 0#64 ∧
    WriteAccepted (refusing (at64 .el2)) 0xF800009F#64 0xFFFFFFFF07FFFF60#64 0#64 ∧
    ¬ WriteAccepted (refusing (at64 .el2)) 0x100000000#64 0xFFFFFFFF07FFFF60#64 0#64 ∧
    WriteAccepted (refusing (at64 .el2)) 0x40000700#64 0xFFFFFFFFBFFFF8FF#64 0x700#64 ∧
    ¬ WriteAccepted (refusing (at64 .el2)) 0x40000600#64 0xFFFFFFFFBFFFF8FF#64 0x700#64 ∧
    ¬ WriteAccepted (refusing (at64 .el2)) 0xC0000700#64 0xFFFFFFFFBFFFF8FF#64 0x700#64 := by
  unfold WriteAccepted ReservedKept
  decide

/-- For VmrsFpsidReadsTheConstant, VmrsFpscrReadsEveryField, VmrsMvfrReadsTheConstants, VmrsFpexcReadsEn,
VmsrFpscrWritesEveryField, VmsrFpexcWritesEn, VmrsApsrCopiesTheFlags, VmsrToReadOnlyRegistersIsRefused and
FpinstAccessesAreRefused: each form runs, allowed and not allowed, at the largest register number. -/
theorem witness_VmrsVmsr :
    RunsA32 (at32 .a32 .el1 true) 0b1110#4 14#4 ∧ RunsA32 (at32 .a32 .el1 true) 0b0001#4 13#4 ∧
    RunsA32 (at32 .a32 .el0 true) 0b1110#4 0#4 ∧
    RunsT32 (at32 .t32 .el1 true) 14#4 ∧ RunsT32 (at32 .t32 .el1 true) 12#4 ∧ RunsT32 (at32 .t32 .el0 true) 0#4 ∧
    (∀ reg ∈ [SysReg32.fpsid, .fpscr, .mvfr0, .mvfr1, .mvfr2, .fpexc],
      Granted32 reg (at32 .a32 .el1 true) ∧ Granted32 reg (at32 .t32 .el1 true)) ∧
    EnabledByEn (at32 .a32 .el1 true) ∧ EnabledByEn (at32 .t32 .el1 true) ∧
    RunsA32 (at32 .a32 .el1 false) 0b1110#4 14#4 ∧ ¬ EnabledByEn (at32 .a32 .el1 false) ∧
    RunsT32 (at32 .t32 .el1 false) 14#4 ∧ ¬ EnabledByEn (at32 .t32 .el1 false) ∧
    (r1 (at32 .a32 .el1 true) 0xFFFFFFFF#32).r[(1#4).toNat]? = some 0xFFFFFFFF#32 ∧
    (at32 .t32 .el1 true).r[(14#4).toNat]? = some 0#32 := by
  unfold RunsA32 RunsT32 Granted32 EnabledByEn
  decide

/-- For VmsrFpscrWritesEveryField and VmsrFpexcWritesEn: accepted and refused values. -/
theorem witness_Vmsr_accepted :
    WriteAccepted (at32 .a32 .el1 true) 0xFFFFFFFF#32 0x003FFF60#32 0#32 ∧
    WriteAccepted (refusing (at32 .a32 .el1 true)) 0xFFC0009F#32 0x003FFF60#32 0#32 ∧
    ¬ WriteAccepted (refusing (at32 .a32 .el1 true)) 0x00000020#32 0x003FFF60#32 0#32 ∧
    ¬ WriteAccepted (refusing (at32 .t32 .el1 true)) 0x00200000#32 0x003FFF60#32 0#32 ∧
    WriteAccepted (refusing (at32 .t32 .el1 true)) 0x00000700#32 0xBFFFF8FF#32 0x700#32 ∧
    ¬ WriteAccepted (refusing (at32 .a32 .el1 true)) 0x40000000#32 0xBFFFF8FF#32 0x700#32 := by
  unfold WriteAccepted ReservedKept
  decide

/-- For VmsrToReadOnlyRegistersIsRefused and FpinstAccessesAreRefused: operands of an A32 and of a T32 word. -/
theorem witness_refused_words : 0b0000#4 ≠ 0b1111#4 ∧ 13#4 ≠ 15#4 ∧ 14#4 ≠ 13#4 ∧ 14#4 ≠ 15#4 := by decide

theorem witness_FailedConditionMakesAnA32AccessANoOp :
    (at32 .a32 .el1 false).ctx.isa = .a32 ∧ 0b0000#4 ≠ 0b1111#4 ∧ 14#4 ≠ 15#4 ∧
    conditionPassed (at32 .a32 .el1 false) 0b0000#4 = false := by
  decide

theorem witness_DecodeOfEncodeIsTheInstruction :
    (Instr.vmrsFpscrA32 0b1110#4 14#4).wf = true ∧ (Instr.mrsFpcr 31#5).wf = true ∧ (Instr.vmsrFpexcT32 14#4).wf = true := by
  decide

theorem witness_EncodeOfDecodeIsTheWord :
    decoded .a64 0xD51B443F#32 = some (.msrFpsr 31#5) ∧ decoded .a32 0x0EF1EA10#32 = some (.vmrsFpscrA32 0#4 14#4) ∧
    decoded .t32 0xEEE8CA10#32 = some (.vmsrFpexcT32 12#4) := by
  decide

/-- An A64 and a T32 instruction fault; what the other side of the equivalence asks holds of an A32 one whose condition
passes. -/
theorem witness_FaultsAreExactlyDeniedAccesses :
    (∃ r, exec (.mrsMvfr0El1 0#5) (at64 .el0) = .fault r) ∧
    (∃ r, exec (.vmsrFpscrT32 0#4) (at32 .t32 .el1 false) = .fault r) ∧
    (accessOf (.vmsrFpexcA32 0b0001#4 3#4) = some (.a32 .fpexc, .write) ∧ (Instr.vmsrFpexcA32 0b0001#4 3#4).wf = true ∧
      (Instr.vmsrFpexcA32 0b0001#4 3#4).isa = (at32 .a32 .el0 true).ctx.isa ∧
      conditionPassed (at32 .a32 .el0 true) (condOf (.vmsrFpexcA32 0b0001#4 3#4)) = true ∧
      rightOf (at32 .a32 .el0 true) (.a32 .fpexc) = .none) :=
  ⟨⟨_, rfl⟩, ⟨_, rfl⟩, by decide⟩

/-- A register the spec refuses, and a reserved bit under `refuse`. -/
theorem witness_OnlyTheSpecsRefusalsAreRefused :
    (Instr.msrMvfr2El1 0#5).wf = true ∧ (Instr.msrMvfr2El1 0#5).isa = (at64 .el1).ctx.isa ∧
    (∃ r, exec (.msrMvfr2El1 0#5) (at64 .el1) = .refused r) ∧
    (Instr.msrFpcr 1#5).wf = true ∧ (Instr.msrFpcr 1#5).isa = (refusing (x1 (at64 .el1) 1#64)).ctx.isa ∧
    exec (.msrFpcr 1#5) (refusing (x1 (at64 .el1) 1#64)) = .refused (.reservedFieldWritten (.a64 .fpcr)) :=
  ⟨rfl, rfl, ⟨_, rfl⟩, rfl, rfl, rfl⟩

/-- For NoInstructionTouchesContextMemoryOrBank, OnlyRegisterWritesChangeTheFieldStore and
El0ReachesOnlyItsOwnRegisters: an instruction of each kind completes. -/
theorem witness_completed_instructions :
    (∃ t, exec (.mrsFpsr 31#5) (at64 .el0) = .next t) ∧
    (∃ t, exec (.msrFpcr 1#5) (x1 (at64 .el0) 0x00400000#64) = .next t) ∧
    (∃ t, exec (.vmrsFpscrA32 0b1110#4 14#4) (at32 .a32 .el0 true) = .next t) ∧
    (∃ t, exec (.vmsrFpscrT32 1#4) (at32 .t32 .el0 true) = .next t) ∧
    (∃ t, exec (.vmrsFpexcA32 0b0000#4 0#4) (at32 .a32 .el0 true) = .next t) ∧
    (at32 .a32 .el0 true).ctx.el = .el0 := by
  exact ⟨⟨_, rfl⟩, ⟨_, rfl⟩, ⟨_, rfl⟩, ⟨_, rfl⟩, ⟨_, rfl⟩, rfl⟩

/-- `VMRS APSR_nzcv, FPSCR` can change APSR. -/
theorem witness_OnlyRegisterWritesChangeTheFieldStore :
    ∃ t, exec .vmrsApsrFpscrT32 (store (at32 .t32 .el0 true) 0x80000000#32) = .next t ∧
      t.apsr ≠ (store (at32 .t32 .el0 true) 0x80000000#32).apsr :=
  ⟨_, rfl, by decide⟩

/-- The last program counters below the top of the address space, in both widths. -/
theorem witness_CompletedInstructionsAdvanceThePcByFour :
    (∃ t, exec (.mrsFpcr 0#5) { at64 .el0 with pc := 0xFFFFFFFFFFFFFFFB#64 } = .next t) ∧
    (0xFFFFFFFFFFFFFFFB#64).toNat + 4 < 2 ^ 64 ∧
    (∃ t, exec (.vmrsFpsidT32 0#4) { at32 .t32 .el1 true with pc := 0xFFFFFFFB#64 } = .next t) ∧
    (0xFFFFFFFB#64).toNat % 2 ^ 32 + 4 < 2 ^ 32 :=
  ⟨⟨_, rfl⟩, by decide, ⟨_, rfl⟩, by decide⟩

/-- EN changes at EL2 and EL3 of AArch64 and above EL0 of AArch32; and a step runs at EL0. -/
theorem witness_OnlyPrivilegedWritesChangeEn :
    (∃ t, exec (.msrFpexc32El2 1#5) (x1 (at64 .el2) 0x40000000#64) = .next t ∧ t.en ≠ (at64 .el2).en) ∧
    (∃ t, exec (.vmsrFpexcT32 1#4) (r1 (at32 .t32 .el1 false) 0x40000000#32) = .next t ∧
      t.en ≠ (at32 .t32 .el1 false).en) ∧
    (∃ t, step (holding (at64 .el0) 0xD53B4400#32) = .next t) :=
  ⟨⟨_, rfl, by decide⟩, ⟨_, rfl, by decide⟩, ⟨_, rfl⟩⟩

/-- A completed, a faulting and a refused instruction of AArch64 that does not read EN. -/
theorem witness_EnHasNoEffectInAArch64 :
    (at64 .el2).ctx.isa = .a64 ∧ readsEn64 (.msrFpexc32El2 0#5) = false ∧
    (∃ t, exec (.msrFpexc32El2 0#5) (at64 .el2) = .next t) ∧
    (∃ r, exec (.msrFpexc32El2 0#5) (at64 .el1) = .fault r) ∧
    (∃ r, exec (.vmrsFpscrT32 0#4) (at64 .el2) = .refused r) :=
  ⟨rfl, rfl, ⟨_, rfl⟩, ⟨_, rfl⟩, ⟨_, rfl⟩⟩

theorem witness_EnDisablesAArch32AccessesUnlessEl1IsAArch64 :
    RunsA32 (at32 .a32 .el1 false) 0b1110#4 14#4 ∧ RunsT32 (at32 .t32 .el0 false) 12#4 ∧
    (at32 .a32 .el1 false).en = false ∧ (at32 .a32 .el1 false).platform.elState.el1 = .aarch32 ∧
    (at64 .el0).platform.elState.el1 = .aarch64 := by
  unfold RunsA32 RunsT32
  decide

theorem witness_EnablingSequenceOpensFpscr :
    RunsA32 (r1 (at32 .a32 .el1 false) 0x40000700#32) 0b1110#4 1#4 ∧ 14#4 ≠ 15#4 ∧
    (at32 .a32 .el1 false).ctx.el ≠ .el0 ∧ Granted32 .fpexc (at32 .a32 .el1 false) ∧
    Granted32 .fpscr (at32 .a32 .el1 false) ∧
    (r1 (at32 .a32 .el1 false) 0x40000700#32).r[(1#4).toNat]? = some 0x40000700#32 ∧
    (0x40000700#32).getLsbD 30 = true ∧
    WriteAccepted (refusing (r1 (at32 .a32 .el1 false) 0x40000700#32)) 0x40000700#32 0xBFFFF8FF#32 0x700#32 ∧
    RunsT32 (r1 (at32 .t32 .el1 false) 0x40000700#32) 1#4 ∧ 14#4 ≠ 13#4 := by
  unfold RunsA32 RunsT32 Granted32 WriteAccepted ReservedKept
  decide

/-- The hypotheses meet at EL2 and at EL3, for a register and for XZR. -/
theorem witness_AWriteIsSeenByTheNextInstruction :
    (at64 .el3).ctx.isa = .a64 ∧ a64FpAccessEnabled (x1 (at64 .el3) 0x07C00000#64) = true ∧
    XHolds (x1 (at64 .el3) 0x07C00000#64) 1#5 0x07C00000#64 ∧ XHolds (at64 .el3) 31#5 0#64 ∧
    (at64 .el3).ctx.el = .el3 ∧ (at64 .el2).ctx.el = .el2 ∧
    WriteAccepted (refusing (at64 .el3)) 0x07C00000#64 0xFFFFFFFFF83FFFFF#64 0#64 ∧
    WriteAccepted (refusing (at64 .el3)) 0#64 0xFFFFFFFF07FFFF60#64 0#64 ∧
    WriteAccepted (at64 .el3) 0#64 0xFFFFFFFFBFFFF8FF#64 0x700#64 := by
  unfold XHolds WriteAccepted ReservedKept
  decide

theorem witness_FpscrWrittenInAArch32IsReadInAArch64 :
    RunsA32 (r1 (at32 .a32 .el0 true) 0xF8C0009F#32) 0b1110#4 1#4 ∧ Granted32 .fpscr (at32 .a32 .el0 true) ∧
    EnabledByEn (at32 .a32 .el0 true) ∧
    (r1 (at32 .a32 .el0 true) 0xF8C0009F#32).r[(1#4).toNat]? = some 0xF8C0009F#32 ∧
    a64FpAccessEnabled ((at32 .a32 .el0 true).withCtx ⟨.a64, .el2, true⟩) = true ∧
    WriteAccepted (refusing (at32 .a32 .el0 true)) 0xF8C0009F#32 0x003FFF60#32 0#32 ∧
    RunsT32 (r1 (at32 .t32 .el0 true) 0xF8C0009F#32) 1#4 := by
  unfold RunsA32 RunsT32 Granted32 EnabledByEn WriteAccepted ReservedKept
  decide

/-- A64, A32 and T32 instructions at the program counter. -/
theorem witness_AStepRunsTheDecodedInstruction :
    ((Instr.mrsFpcr 5#5).wf = true ∧ (holding (at64 .el0) 0xD53B4405#32).fetchAddr % fetchAlignment .a64 = 0 ∧
      (holding (at64 .el0) 0xD53B4405#32).mem.readBytes (2 ^ pcWidth .a64) 0x1000 4 =
        some (encodeBytes (.mrsFpcr 5#5))) ∧
    ((Instr.vmrsFpscrT32 2#4).wf = true ∧ (holding (at32 .t32 .el0 true) 0xEEF12A10#32).fetchAddr % fetchAlignment .t32 = 0 ∧
      (holding (at32 .t32 .el0 true) 0xEEF12A10#32).mem.readBytes (2 ^ pcWidth .t32) 0x1000 4 =
        some (encodeBytes (.vmrsFpscrT32 2#4))) := by
  decide

theorem witness_ThePlacedWordIsTheNextInstruction :
    decodeTableWord 32 0x0EF10A10 = some (.vmrsFpscrA32 0#4 0#4) ∧
    decodeTableWord 32 0xD5380400 = some (.mrsIdAa64pfr0El1 0#5) := by
  decide

theorem witness_FetchStopsWhereNoInstructionIs :
    (State.fetchAddr { at64 .el1 with pc := 0x1002#64 } % fetchAlignment .a64 ≠ 0) ∧
    ((at64 .el1).fetchAddr % fetchAlignment (at64 .el1).ctx.isa = 0 ∧ 3 < 4 ∧
      (at64 .el1).mem.read ((at64 .el1).fetchAddr + 3) = none) ∧
    (fetch (holding (at64 .el1) 0#32) = .next [0#8, 0#8, 0#8, 0#8] ∧
      decodeBytes .a64 [0#8, 0#8, 0#8, 0#8] = .error (.notInSource 0#32)) :=
  ⟨by decide, by decide, rfl, rfl⟩

theorem witness_EveryStepKeepsTheInvariant :
    (holding (at64 .el0) 0xD53B4400#32).Inv ∧ (∃ t, step (holding (at64 .el0) 0xD53B4400#32) = .next t) ∧
    (holding (at32 .t32 .el0 true) 0xEEF10A10#32).Inv ∧
    (∃ t, step (holding (at32 .t32 .el0 true) 0xEEF10A10#32) = .next t) := by
  refine ⟨?_, ⟨_, rfl⟩, ?_, ⟨_, rfl⟩⟩ <;> unfold State.Inv <;> decide

/-- A single-precision operation on one element of two operands, with or without a comparison. -/
def singleOp (x : DWord) (cls : FpClass) (compares : Bool) : FpOperation :=
  ⟨0, [[0#64, x]], cls, .floatingPoint (some .single) (if compares then none else some .single), false, compares⟩

/-- The class operation completes, whatever the numerics answer. -/
theorem witness_AArch32AdvancedSimdIgnoresTheControls :
    (∃ result t, fpOperation (singleOp 0#64 .advSimd false) (at32 .a32 .el0 true) = .next (result, t)) ∧
    (at32 .a32 .el0 true).ctx.isa ≠ .a64 :=
  ⟨⟨_, _, rfl⟩, by decide⟩

/-- A comparison with no NaN operand and one with a NaN operand, in each execution state. -/
theorem witness_ComparisonsSetTheFlagsOfTheTable :
    ((at32 .a32 .el0 true).ctx.isa ≠ .a64 ∧ dataProcessingEnabled (at32 .a32 .el0 true) = true) ∧
    ((at64 .el0).ctx.isa = .a64 ∧ dataProcessingEnabled (at64 .el0) = true) ∧
    (∃ c, fpComparison (singleOp 0x3F800000#64 .scalar true) (at64 .el0) = some c) ∧
    (singleOp 0x3F800000#64 .scalar true).hasNaN (at64 .el0).f.control = false ∧
    ((singleOp 0x7F800000#64 .scalar true).compares = true ∧
      (singleOp 0x7F800000#64 .scalar true).kind = .floatingPoint (some .single) none) ∧
    fpComparison (singleOp 0x7FC00000#64 .scalar true) (at32 .a32 .el0 true) = some .unordered :=
  ⟨by decide, by decide, ⟨_, rfl⟩, by decide, by decide, by decide⟩

/-- An infinity is no NaN: the comparison is one of the three ordered results, whatever the numerics answer (R162). -/
theorem test_comparison_with_infinity_is_ordered :
    fpComparison (singleOp 0x7F800000#64 .scalar true) (at64 .el0) ≠ some .unordered := by
  rw [Ne, fpComparison_eq_unordered_iff]
  decide

theorem witness_OperationsAccumulateAndNeverTrap :
    dataProcessingEnabled (at32 .t32 .el0 true) = true ∧ dataProcessingEnabled (at64 .el0) = true ∧
    (singleOp 0#64 .scalar false).kind ≠ .integer ∧
    (FpOperation.mk 0 [] .advSimd .integer false false).kind = .integer ∧
    fpComparison (singleOp 0#64 .scalar false) (at64 .el0) = none := by
  decide

theorem witness_ADisabledClassFaults :
    ((at32 .a32 .el1 false).ctx.isa ≠ .a64 ∧ (at32 .a32 .el1 false).en = false ∧
      (at32 .a32 .el1 false).platform.elState.el1 = .aarch32) ∧
    (at64 .el0).ctx.isa = .a64 ∧
    (State.withCtx (at64 .el0) ⟨.a32, .el0, true⟩).ctx.isa ≠ .a64 ∧
    (State.withCtx (at64 .el0) ⟨.a32, .el0, true⟩).platform.elState.el1 = .aarch64 := by
  decide

/-- An operation of each kind that the clauses name, and the contexts. -/
theorem witness_ControlsReachOnlyTheOperationsTheyGovern :
    (singleOp 0#64 .advSimd false).kind.convertsHalf = false ∧
    (FpOperation.mk 0 [] .scalar (.floatingPoint none none) true false).ownRounding = true ∧
    (singleOp 0#64 .advSimd false).cls = .advSimd ∧ (at32 .a32 .el0 true).ctx.isa ≠ .a64 := by
  decide

/-- DN = 0, DN = 1 (bit 25), and AArch32 Advanced SIMD; a single-precision, an IEEE half-precision and a double-precision NaN
among the operands of an element. -/
theorem witness_NaNOperandsReturnANaN :
    (dataProcessingEnabled (at64 .el0) = true ∧ (at64 .el0).f.control.dn = false ∧
      ¬ ((at64 .el0).ctx.isa ≠ .a64 ∧ (singleOp 0xFF800001#64 .scalar false).cls = .advSimd) ∧
      (singleOp 0xFF800001#64 .scalar false).kind.source (at64 .el0).f.control.ahp = some (.arith .single) ∧
      (singleOp 0xFF800001#64 .scalar false).kind.result (at64 .el0).f.control.ahp = some (.arith .single) ∧
      (singleOp 0xFF800001#64 .scalar false).elements[0]? = some [0#64, 0xFF800001#64] ∧
      (FpFormat.arith .single).isNaN 0xFF800001#64 = true) ∧
    (dataProcessingEnabled (store (at64 .el0) 0x02000000#32) = true ∧
      (store (at64 .el0) 0x02000000#32).f.control.dn = true) ∧
    (dataProcessingEnabled (at32 .t32 .el0 true) = true ∧ (at32 .t32 .el0 true).ctx.isa ≠ .a64 ∧
      (singleOp 0xFF800001#64 .advSimd false).cls = .advSimd) ∧
    ((FpKind.toHalf .double).source false = some (.arith .double) ∧ (FpKind.toHalf .double).result false = some .half ∧
      FpFormat.half ≠ .altHalf ∧ (FpFormat.arith .double).isNaN 0x7FF0000000000001#64 = true) ∧
    ((FpKind.fromHalf .single).source false = some .half ∧ FpFormat.half.isNaN 0xFC01#64 = true) := by
  decide

theorem witness_AComparisonWithANaNIsUnordered :
    dataProcessingEnabled (at64 .el0) = true ∧ dataProcessingEnabled (at32 .a32 .el0 true) = true ∧
    (singleOp 0x7FC00000#64 .scalar true).compares = true ∧
    (singleOp 0x7FC00000#64 .scalar true).kind = .floatingPoint (some .single) none ∧
    [0#64, 0x7FC00000#64] ∈ (singleOp 0x7FC00000#64 .scalar true).elements ∧
    (FpFormat.arith .single).isNaN 0x7FC00000#64 = true ∧ (at64 .el0).ctx.isa = .a64 ∧
    (at32 .a32 .el0 true).ctx.isa ≠ .a64 := by
  decide

end Sys2Proof.Tests
end

section
/-! What a well-formed instruction of the context's set can be refused for: the shared register accesses answer a refusal only
where the spec does (R111, R122, R131, R141, R142). -/

namespace Sys2Proof.Machine

/-- The AArch64 registers an executed `MSR` names are never read-only (R27, R30, R39). -/
theorem acc64_ne_ro_of_writable {reg : SysReg64} (s : State) (hreg : reg ∈ [SysReg64.fpcr, .fpsr, .fpexc32El2]) :
    acc64 reg s ≠ .ro := by
  have htable (el : El) : table64 reg el ≠ .ro := by
    simp only [List.mem_cons, List.not_mem_nil, or_false] at hreg
    rcases hreg with rfl | rfl | rfl <;> cases el <;> decide
  cases he : a64FpAccessEnabled s
  · simp [acc64_of_disabled reg he]
  · rw [acc64_of_enabled reg he]; exact htable _

/-- The AArch32 registers an executed `VMSR` names are never read-only (R44, R51). -/
theorem acc32_ne_ro_of_writable {reg : SysReg32} (s : State) (hreg : reg ∈ [SysReg32.fpscr, .fpexc]) :
    acc32 reg s ≠ .ro := by
  have htype : type32 reg = .rw := by
    simp only [List.mem_cons, List.not_mem_nil, or_false] at hreg
    rcases hreg with rfl | rfl <;> rfl
  rcases acc32_cases reg s with ⟨-, h⟩ | ⟨-, h⟩ | ⟨-, -, h⟩ <;> simp [h, htype]

/-- In AArch64 `MRS` is never refused (R110). -/
theorem readSys64_ne_refused (reg : SysReg64) (rt : BitVec 5) {s : State} (r : Refusal) (hi : s.ctx.isa = .a64) :
    readSys64 reg rt s ≠ .refused r := by
  rcases readSys64_cases reg rt s with ⟨h, -⟩ | ⟨-, -, h⟩ | ⟨-, -, h⟩
  · exact absurd hi h
  · simp [h]
  · simp [h]

/-- In AArch64 `MSR` of a writable register is refused only for its reserved positions (R111). -/
theorem writeSys64_refused_cases {reg : SysReg64} {rt : BitVec 5} {s : State} {r : Refusal} (hi : s.ctx.isa = .a64)
    (hreg : reg ∈ [SysReg64.fpcr, .fpsr, .fpexc32El2]) (h : writeSys64 reg rt s = .refused r) :
    s.refusesWrite (badWrite64 reg (s.readX rt)) = true ∧ r = .reservedFieldWritten (.a64 reg) := by
  rcases writeSys64_cases reg rt s with ⟨hn, -⟩ | ⟨-, -, h'⟩ | ⟨-, hro, -⟩ | ⟨-, -, hbad, h'⟩ | ⟨-, -, -, h'⟩
  · exact absurd hi hn
  · simp [h'] at h
  · exact absurd hro (acc64_ne_ro_of_writable s hreg)
  · rw [h'] at h; cases h; exact ⟨hbad, rfl⟩
  · simp [h'] at h

/-- In its own instruction set and with admitted operands, an AArch32 access that does not write a read-only register is
refused only by what it performs (R187). -/
theorem access32_refused_performed {form : Form32} {ok : Bool} {reg : SysReg32} {access : Access} {s : State} {r : Refusal}
    {p : Host.Outcome State Fault Refusal} (hi : s.ctx.isa = form.isa) (hok : (form.condAdmitted && ok) = true)
    (hw : acc32 reg s = .ro → access = .read) (h : access32 form ok reg access s p = .refused r) :
    p = .refused r := by
  rcases access32_cases form ok reg access s p with ⟨hn, -⟩ | ⟨-, hn, -⟩ | ⟨-, -, -, h'⟩ | ⟨-, -, -, -, h'⟩ |
    ⟨-, -, -, hro, hwrite, -⟩ | ⟨-, -, -, -, -, h'⟩
  · exact absurd hi hn
  · simp [hok] at hn
  · simp [h'] at h
  · simp [h'] at h
  · simp [hw hro] at hwrite
  · exact h' ▸ h

/-- A well-formed `VMSR` of a writable register is refused only for its reserved positions (R131). -/
theorem writeSys32_refused_cases {form : Form32} {reg : SysReg32} {rt : BitVec 4} {s : State} {r : Refusal}
    (hi : s.ctx.isa = form.isa) (hok : (form.condAdmitted && form.rtAdmitted rt) = true)
    (hreg : reg ∈ [SysReg32.fpscr, .fpexc]) (h : writeSys32 form reg rt s = .refused r) :
    s.refusesWrite (reservedBroken (.a32 reg) (s.readR rt)) = true ∧ r = .reservedFieldWritten (.a32 reg) := by
  have hp := access32_refused_performed hi hok (fun hro => absurd hro (acc32_ne_ro_of_writable s hreg)) h
  split at hp
  next hbad => cases hp; exact ⟨hbad, rfl⟩
  next => cases hp

/-- A refused write breaks a reserved position of its register, under `P_RES_WRITE = refuse` (R12). -/
theorem resWrite_refuse_of_refusesWrite {bad : Bool} {s : State} {i : Instr} (hkept : bad = false ↔ KeepsReserved s i)
    (h : s.refusesWrite bad = true) : s.platform.resWrite = .refuse ∧ ¬ KeepsReserved s i := by
  obtain ⟨hbad, href⟩ := (s.refusesWrite_iff bad).mp h
  exact ⟨href, fun hk => by simp [hkept.mpr hk] at hbad⟩

/-- Settles O32, by the shared operation the instruction is: a read or a flag transfer is never refused, and a write only
for its reserved positions. -/
theorem onlyTheSpecsRefusalsAreRefused : Obligations.OnlyTheSpecsRefusalsAreRefused := by
  intro i s r hwf hisa h
  cases exec_shape i s with
  | readSys64 reg rt run isa =>
    exact absurd (run ▸ h) (readSys64_ne_refused reg rt r (hisa.symm.trans isa))
  | writeSys64 reg rt run isa _ hreg own kept =>
    obtain ⟨hbad, rfl⟩ := writeSys64_refused_cases (hisa.symm.trans isa) hreg (run ▸ h)
    obtain ⟨href, hbroken⟩ := resWrite_refuse_of_refusesWrite kept hbad
    exact .inr ⟨href, hbroken, _, own.1, rfl⟩
  | readSys32 form reg rt run isa wf =>
    have hp := access32_refused_performed (hisa.symm.trans isa) (wf ▸ hwf) (fun _ => rfl) (run ▸ h)
    cases hp
  | writeSys32 form reg rt run isa wf _ hreg own kept =>
    obtain ⟨hbad, rfl⟩ := writeSys32_refused_cases (hisa.symm.trans isa) (wf ▸ hwf) hreg (run ▸ h)
    obtain ⟨href, hbroken⟩ := resWrite_refuse_of_refusesWrite kept hbad
    exact .inr ⟨href, hbroken, _, own.1, rfl⟩
  | transferFlags form run isa wf =>
    have hp := access32_refused_performed (hisa.symm.trans isa) (wf ▸ hwf) (fun _ => rfl) (run ▸ h)
    cases hp
  | refused _ _ spec => exact .inl spec

end Sys2Proof.Machine
end

section
/-! The register views and the writes of the field store (R26, R29, R38, R43, R45): what a written register reads back, and
that FPCR and FPSR split FPSCR between them. -/

namespace Sys2Proof.Machine

/-! FPCR and FPSR share no bit. -/

/-- FPCR is FPSCR's control part: FPSR has no bit there (R43). -/
theorem fpscrView_and_control (f : FieldStore) : fpscrView f &&& 0x07C00000#32 = fpcrView f := by
  refine BitVec.eq_of_getLsbD_eq fun i hi => ?_
  rw [fpscrView, BitVec.getLsbD_and, BitVec.getLsbD_or, fpsrView_getLsbD, fpcrView_getLsbD]
  interval_cases i <;> simp

/-- FPSR is FPSCR's status part: FPCR has no bit there (R43). -/
theorem fpscrView_and_status (f : FieldStore) : fpscrView f &&& 0xF800009F#32 = fpsrView f := by
  refine BitVec.eq_of_getLsbD_eq fun i hi => ?_
  rw [fpscrView, BitVec.getLsbD_and, BitVec.getLsbD_or, fpsrView_getLsbD, fpcrView_getLsbD]
  interval_cases i <;> simp

/-! The fields of a written word lie inside its register's writable mask. -/

/-- A mask that holds every bit of a field keeps the field. -/
theorem extractLsb'_and_of_allOnes {n start len : Nat} (v : BitVec n) {m : BitVec n}
    (h : m.extractLsb' start len = BitVec.allOnes len) : (v &&& m).extractLsb' start len = v.extractLsb' start len := by
  rw [BitVec.extractLsb'_and, h, BitVec.and_allOnes]

@[simp] theorem controlOfWord_and_mask (v : Word) : controlOfWord (v &&& 0x07C00000#32) = controlOfWord v := by
  have hmode : (v &&& 0x07C00000#32).extractLsb' 22 2 = v.extractLsb' 22 2 := extractLsb'_and_of_allOnes v rfl
  simp [controlOfWord, hmode]

@[simp] theorem flagsOfWord_and_mask (v : Word) : flagsOfWord (v &&& 0xF800009F#32) = flagsOfWord v := by
  simp [flagsOfWord]

@[simp] theorem exceptionsOfWord_and_mask (v : Word) :
    exceptionsOfWord (v &&& 0xF800009F#32) = exceptionsOfWord v := by
  simp [exceptionsOfWord]

/-- Writing FPSCR is writing FPCR and then FPSR, each with its own bits (R45). -/
theorem writeFpscr_eq_split (v : Word) (f : FieldStore) :
    writeFpscr v f = writeFpsr (v &&& 0xF800009F#32) (writeFpcr (v &&& 0x07C00000#32) f) := by
  have hqc : (v &&& 0xF800009F#32).getLsbD 27 = v.getLsbD 27 := by simp
  rw [writeFpsr, writeFpcr, controlOfWord_and_mask, flagsOfWord_and_mask, exceptionsOfWord_and_mask, hqc, writeFpscr]

/-! What a write reads back. -/

/-- A store whose control fields are those of a word reads as FPCR in the writable mask (R26). -/
theorem fpcrView_of_control {f : FieldStore} {v : Word} (h : f.control = controlOfWord v) :
    fpcrView f = v &&& 0x07C00000#32 := by
  refine BitVec.eq_of_getLsbD_eq fun i hi => ?_
  rw [fpcrView_getLsbD, h, controlOfWord, RoundingMode.bits_ofBits, BitVec.getLsbD_and]
  interval_cases i <;> simp

/-- A store whose status fields are those of a word reads as FPSR in the writable mask (R29). -/
theorem fpsrView_of_status {f : FieldStore} {v : Word} (hflags : f.flags = flagsOfWord v) (hqc : f.qc = v.getLsbD 27)
    (hexc : f.exc = exceptionsOfWord v) : fpsrView f = v &&& 0xF800009F#32 := by
  refine BitVec.eq_of_getLsbD_eq fun i hi => ?_
  rw [fpsrView_getLsbD, hflags, hqc, hexc, flagsOfWord, exceptionsOfWord, BitVec.getLsbD_and]
  interval_cases i <;> simp

/-- A written FPSCR reads back in the union of the two masks (R43). -/
theorem fpscrView_writeFpscr (v : Word) (f : FieldStore) : fpscrView (writeFpscr v f) = v &&& 0xFFC0009F#32 := by
  rw [fpscrView, fpsrView_of_status rfl rfl rfl, fpcrView_of_control rfl, ← BitVec.and_or_distrib_left]
  rfl

/-- A written EN reads back at bit 30 of FPEXC, whose bits 10:8 are RES1 (R38, R50). -/
theorem fpexcView_enOfWord (v : Word) : fpexcView (enOfWord v) = (v &&& 0x40000000#32) ||| 0x00000700#32 := by
  refine BitVec.eq_of_getLsbD_eq fun i hi => ?_
  rw [fpexcView_getLsbD, enOfWord, BitVec.getLsbD_or, BitVec.getLsbD_and]
  interval_cases i <;> simp

/-! The fields of a register's own value are the fields it shows. -/

theorem controlOfWord_fpcrView (f : FieldStore) : controlOfWord (fpcrView f) = f.control := by
  have hmode : (fpcrView f).extractLsb' 22 2 = f.control.rmode.bits := by
    refine BitVec.eq_of_getLsbD_eq fun i hi => ?_
    rw [BitVec.getLsbD_extractLsb', fpcrView_getLsbD]
    interval_cases i <;> simp
  rw [controlOfWord, hmode, RoundingMode.ofBits_bits]
  simp only [fpcrView_getLsbD, Nat.reduceEqDiff, ↓reduceIte]

theorem writeFpcr_fpcrView (f : FieldStore) : writeFpcr (fpcrView f) f = f := by
  rw [writeFpcr, controlOfWord_fpcrView]

theorem writeFpsr_fpsrView (f : FieldStore) : writeFpsr (fpsrView f) f = f := by
  simp only [writeFpsr, flagsOfWord, exceptionsOfWord, fpsrView_getLsbD, Nat.reduceEqDiff,
    OfNat.zero_ne_ofNat, ↓reduceIte]

/-- Writing FPSCR with what it reads writes FPCR and FPSR with what they read (R45). -/
theorem writeFpscr_fpscrView (f : FieldStore) : writeFpscr (fpscrView f) f = f := by
  rw [writeFpscr_eq_split, fpscrView_and_control, fpscrView_and_status, writeFpcr_fpcrView, writeFpsr_fpsrView]

@[simp] theorem enOfWord_fpexcView (en : Bool) : enOfWord (fpexcView en) = en := by
  rw [enOfWord, fpexcView_getLsbD, if_pos rfl]

/-- Settles O3: each field of FPSCR lies in one of the masks in which it is FPCR or FPSR. -/
theorem fpscrFpcrAndFpsrAreViewsOfOneStore : Obligations.FpscrFpcrAndFpsrAreViewsOfOneStore := by
  refine ⟨fun f => ⟨?_, ?_, ?_, ?_, BitVec.or_comm _ _⟩, fun f v => writeFpscr_eq_split v f, State.withCtx_f⟩
  · rw [← fpscrView_and_control, extractLsb'_and_of_allOnes _ rfl]
  · rw [← fpscrView_and_status, extractLsb'_and_of_allOnes _ rfl]
  · rw [← fpscrView_and_status]; simp
  · rw [← fpscrView_and_status, extractLsb'_and_of_allOnes _ rfl]

/-- Settles O4: a view reads the fields of the written word, and shows them inside the writable mask. -/
theorem writtenRegistersReadBackInTheirMasks : Obligations.WrittenRegistersReadBackInTheirMasks := fun v f =>
  ⟨fpcrView_of_control rfl, rfl, fpsrView_of_status rfl rfl rfl, rfl, fpscrView_writeFpscr v f, fpexcView_enOfWord v⟩

/-- Settles O5: the fields of a view are the fields of the store. -/
theorem readingAndWritingBackKeepsTheFields : Obligations.ReadingAndWritingBackKeepsTheFields := fun f en =>
  ⟨writeFpcr_fpcrView f, writeFpsr_fpsrView f, writeFpscr_fpscrView f, enOfWord_fpexcView en⟩

end Sys2Proof.Machine
end

section
/-! What reset leaves in the registers (R56), and the fields of the identification words (R32, R34, R36, R41). -/

namespace Sys2Proof.Machine

theorem fpcrView_reset : fpcrView FieldStore.reset = 0#32 := by decide
theorem fpsrView_reset : fpsrView FieldStore.reset = 0#32 := by decide
theorem fpscrView_reset : fpscrView FieldStore.reset = 0#32 := by decide
theorem fpexcView_false : fpexcView false = 0x700#32 := by decide
theorem mvfr0Word_eq : mvfr0Word = 0x10110222#32 := by decide
theorem mvfr1Word_eq : mvfr1Word = 0x12111111#32 := by decide
theorem mvfr2Word_eq : mvfr2Word = 0x43#32 := by decide
theorem fpsidWord_eq : fpsidWord = 0x41034034#32 := by decide

/-- Settles O1: reset puts the zero store and EN = 0 under the views; the identification words are constants. -/
theorem resetLeavesTheStatedRegisterValues : Obligations.ResetLeavesTheStatedRegisterValues := by
  intro ctx pc platform s
  have hf : s.f = FieldStore.reset := rfl
  have hen : s.en = false := rfl
  refine ⟨hf, hen, ?_, ?_, ?_, ?_, ?_, ?_, ?_, ?_, ?_, ?_, ?_, ?_, by decide, by decide⟩ <;>
    simp only [view64, view32, hf, hen, fpcrView_reset, fpsrView_reset, fpscrView_reset, fpexcView_false, mvfr0Word_eq,
      mvfr1Word_eq, mvfr2Word_eq, fpsidWord_eq] <;>
    rfl

/-- Settles O2: the words are constants, so each field is a computation. -/
theorem identificationWordsHoldTheirFields : Obligations.IdentificationWordsHoldTheirFields := by
  intro s
  simp only [view64, view32, mvfr0Word_eq, mvfr1Word_eq, mvfr2Word_eq, fpsidWord_eq]
  decide

end Sys2Proof.Machine
end

section
/-! Access rights: the tables of R60 with the enables applied. -/

namespace Sys2Proof.Machine

/-- Where EN can disable a register other than FPSCR (R52): above EL0, granted and enabled. -/
theorem allowed32_iff_of_dependsOnEn {reg : SysReg32} (s : State) (h : reg ≠ .fpscr) (hen : dependsOnEn reg = true) :
    Allowed32 reg s ↔ s.ctx.el ≠ .el0 ∧ Granted32 reg s ∧ EnabledByEn s := by
  simp [Allowed32, h, hen]

/-- Where it cannot: above EL0 and granted. -/
theorem allowed32_iff_of_not_dependsOnEn {reg : SysReg32} (s : State) (h : reg ≠ .fpscr)
    (hen : dependsOnEn reg = false) : Allowed32 reg s ↔ s.ctx.el ≠ .el0 ∧ Granted32 reg s := by
  simp [Allowed32, h, hen]

/-- FPSCR is allowed at every level (R44). -/
theorem allowed32_fpscr_iff (s : State) : Allowed32 .fpscr s ↔ Granted32 .fpscr s ∧ EnabledByEn s := by
  simp [Allowed32, dependsOnEn]

/-- An AArch32 register has its own type where its access is allowed, and no right where it is not (R60). -/
theorem acc32_of_allowed_iff {reg : SysReg32} {s : State} {allowed : Prop} (hi : s.ctx.isa ≠ .a64)
    (h : Allowed32 reg s ↔ allowed) : (allowed → acc32 reg s = type32 reg) ∧ (¬ allowed → acc32 reg s = .none) :=
  ⟨fun ha => acc32_of_allowed hi (h.mpr ha), fun ha => acc32_of_not_allowed hi (h.not.mpr ha)⟩

/-- The AArch32 tables as R42, R44, R49 and R51 print them. -/
theorem table32_eq (reg : SysReg32) (el : El) (secure : Bool) : table32 reg el secure =
    if el = .el0 ∧ reg ≠ .fpscr then .dash
    else if el = .el2 ∨ secure = false then .config
    else if reg = .fpscr ∨ reg = .fpexc then .rw else .ro := by
  cases reg <;> cases el <;> cases secure <;> rfl

/-- The rights of FPSID and FPEXC do not depend on EN (R52). -/
theorem acc32_withEn_of_not_dependsOnEn {reg : SysReg32} (s : State) (b : Bool) (h : dependsOnEn reg = false) :
    acc32 reg { s with en := b } = acc32 reg s := by
  simp [acc32, a32FpAccessEnabled, h]

/-- Under an AArch64 EL1 no right depends on EN (R52, R167). -/
theorem acc32_withEn_of_el1_aarch64 (reg : SysReg32) {s : State} (b : Bool) (h : s.platform.elState.el1 = .aarch64) :
    acc32 reg { s with en := b } = acc32 reg s := by
  simp [acc32, a32FpAccessEnabled, enOpen, h]

/-- Settles O11: `acc64` and `acc32` are their tables under the enables, and the tables are finite. -/
theorem accessRightsAreTheTables : Obligations.AccessRightsAreTheTables := by
  refine ⟨fun s h reg => acc64_of_disabled reg h, fun s h => ?_, table32_eq, fun s hi => ?_,
    fun s b => ⟨acc32_withEn_of_not_dependsOnEn s b rfl, acc32_withEn_of_not_dependsOnEn s b rfl⟩⟩
  · simp only [acc64_of_enabled _ h, List.forall_mem_cons]
    cases s.ctx.el <;> decide
  · have mvfr {reg : SysReg32} (h : reg ≠ .fpscr) (hen : dependsOnEn reg = true) :=
      acc32_of_allowed_iff hi (allowed32_iff_of_dependsOnEn s h hen)
    have enFree {reg : SysReg32} (h : reg ≠ .fpscr) (hen : dependsOnEn reg = false) :=
      acc32_of_allowed_iff hi (allowed32_iff_of_not_dependsOnEn s h hen)
    obtain ⟨fpscrAllowed, fpscrDenied⟩ := acc32_of_allowed_iff hi (allowed32_fpscr_iff s)
    obtain ⟨fpsidAllowed, fpsidDenied⟩ := enFree (reg := .fpsid) (by decide) rfl
    obtain ⟨fpexcAllowed, fpexcDenied⟩ := enFree (reg := .fpexc) (by decide) rfl
    refine ⟨?_, fpscrAllowed, fpscrDenied, fpsidAllowed, fpsidDenied, fpexcAllowed, fpexcDenied⟩
    simp only [List.forall_mem_cons]
    exact ⟨mvfr (by decide) rfl, mvfr (by decide) rfl, mvfr (by decide) rfl, List.forall_mem_nil _⟩

end Sys2Proof.Machine
end

section
/-! What every completed instruction leaves as it was, and where the program counter goes. -/

namespace Sys2Proof.Machine

/-- A completed instruction moves the program counter past itself and changes nothing else but the general-purpose registers,
APSR, the field store and EN. -/
theorem exec_next_frame {i : Instr} {s t : State} (h : exec i s = .next t) :
    t = { s with pc := nextPc s.ctx.isa s.pc, x := t.x, r := t.r, apsr := t.apsr, f := t.f, en := t.en } := by
  rcases exec_next_cases h with ⟨rt, v, rfl, -⟩ | ⟨rt, v, rfl, -⟩ | ⟨w, reg, rfl, -⟩ | ⟨w, reg, rfl, -⟩ | ⟨rfl, -⟩ |
    ⟨rfl, -⟩
  · rw [State.writeX_eq]; rfl
  · rw [State.writeR_eq]; rfl
  · cases reg <;> rfl
  · cases reg <;> rfl
  · rfl
  · rfl

/-- Settles O33, from the frame of a completed instruction. -/
theorem noInstructionTouchesContextMemoryOrBank : Obligations.NoInstructionTouchesContextMemoryOrBank := by
  intro i s t h
  have hframe := exec_next_frame h
  refine ⟨?_, ?_, fun a => ?_, ?_, ?_, ?_⟩ <;> rw [hframe]

/-- Settles O34: a completed instruction leaves `nextPc`, which adds 4 below the top of the address space. -/
theorem completedInstructionsAdvanceThePcByFour : Obligations.CompletedInstructionsAdvanceThePcByFour := by
  intro i s t h
  have hpc : t.pc = nextPc s.ctx.isa s.pc := congrArg State.pc (exec_next_frame h)
  refine ⟨fun hi hlt => ?_, fun hi hlt => ?_, fun hi => hpc ▸ nextPc_lt_aarch32 s.pc hi⟩
  · rw [hpc, hi, nextPc_a64 hlt, BitVec.toNat_add]
    exact Nat.mod_eq_of_lt hlt
  · rw [hpc, nextPc_aarch32 hi hlt, BitVec.toNat_setWidth, BitVec.toNat_add, BitVec.toNat_setWidth]
    simp only [BitVec.toNat_ofNat]
    omega

end Sys2Proof.Machine
end

section
/-! Where an instruction faults: exactly where its own access is reached and has no right (R186, R187). -/

namespace Sys2Proof.Machine

/-- Where `MRS` faults (R110). -/
theorem readSys64_eq_fault_iff (reg : SysReg64) (rt : BitVec 5) (s : State) (r : Fault) :
    readSys64 reg rt s = .fault r ↔
      s.ctx.isa = .a64 ∧ acc64 reg s = .none ∧ r = .undefinedInstruction (.a64 reg) .read s.ctx := by
  rcases readSys64_cases reg rt s with ⟨hi, h⟩ | ⟨hi, ha, h⟩ | ⟨-, ha, h⟩ <;> rw [h]
  · simp [hi]
  · simp [hi, ha, eq_comm]
  · simp [ha]

/-- Where `MSR` faults (R111). -/
theorem writeSys64_eq_fault_iff (reg : SysReg64) (rt : BitVec 5) (s : State) (r : Fault) :
    writeSys64 reg rt s = .fault r ↔
      s.ctx.isa = .a64 ∧ acc64 reg s = .none ∧ r = .undefinedInstruction (.a64 reg) .write s.ctx := by
  rcases writeSys64_cases reg rt s with ⟨hi, h⟩ | ⟨hi, ha, h⟩ | ⟨-, ha, h⟩ | ⟨-, ha, -, h⟩ | ⟨-, ha, -, h⟩ <;> rw [h]
  · simp [hi]
  · simp [hi, ha, eq_comm]
  · simp [ha]
  · simp [ha]
  · simp [ha]

/-- Where an AArch32 access faults whose own operation does not (R130, R131). -/
theorem access32_eq_fault_iff {form : Form32} {ok : Bool} {reg : SysReg32} {access : Access} {s : State}
    {p : Host.Outcome State Fault Refusal} {r : Fault} (hp : p ≠ .fault r) :
    access32 form ok reg access s p = .fault r ↔
      (form.condAdmitted && ok) = true ∧ s.ctx.isa = form.isa ∧ form.passes s = true ∧ acc32 reg s = .none ∧
        r = .undefinedInstruction (.a32 reg) access s.ctx := by
  rcases access32_cases form ok reg access s p with ⟨hi, h⟩ | ⟨-, hok, h⟩ | ⟨-, -, hc, h⟩ | ⟨hi, hok, hc, ha, h⟩ |
    ⟨-, -, -, ha, -, h⟩ | ⟨-, -, -, ha, -, h⟩ <;> rw [h]
  · simp [hi]
  · simp [hok]
  · simp [hc]
  · simp [hi, hok, hc, ha, eq_comm]
  · simp [ha]
  · simp [ha, hp]

/-- Settles O31, by the shared operation the instruction is. -/
theorem faultsAreExactlyDeniedAccesses : Obligations.FaultsAreExactlyDeniedAccesses := by
  intro i s r
  cases exec_shape i s with
  | readSys64 reg rt run isa _ _ own =>
    obtain ⟨hacc, hwf, hcond⟩ := own
    rw [run, readSys64_eq_fault_iff]
    simp [hacc, hwf, hcond, isa, rightOf, eq_comm (a := s.ctx.isa)]
  | writeSys64 reg rt run isa _ _ own =>
    obtain ⟨hacc, hwf, hcond⟩ := own
    rw [run, writeSys64_eq_fault_iff]
    simp [hacc, hwf, hcond, isa, rightOf, eq_comm (a := s.ctx.isa)]
  | readSys32 form reg rt run isa wf _ own =>
    obtain ⟨hacc, hcond⟩ := own
    rw [run, readSys32, access32_eq_fault_iff (by simp)]
    simp [hacc, wf, hcond, isa, rightOf, eq_comm (a := s.ctx.isa)]
  | writeSys32 form reg rt run isa wf _ _ own =>
    obtain ⟨hacc, hcond⟩ := own
    rw [run, writeSys32, access32_eq_fault_iff (by split <;> simp)]
    simp [hacc, wf, hcond, isa, rightOf, eq_comm (a := s.ctx.isa)]
  | transferFlags form run isa wf _ _ own =>
    obtain ⟨hacc, hcond⟩ := own
    rw [run, transferFlags, access32_eq_fault_iff (by simp)]
    simp [hacc, wf, hcond, isa, rightOf, eq_comm (a := s.ctx.isa)]
  | refused _ run _ own => simp [run, own]

/-- With EN = 0 and an AArch32 EL1, an access that depends on EN has no right (R52, D23). -/
theorem acc32_none_of_en_closed {reg : SysReg32} {s : State} (hi : s.ctx.isa ≠ .a64) (hdep : dependsOnEn reg = true)
    (hen : s.en = false) (hel1 : s.platform.elState.el1 = .aarch32) : acc32 reg s = .none := by
  refine acc32_of_not_allowed hi fun ⟨_, _, henabled⟩ => ?_
  simp [EnabledByEn, hdep, hen, hel1] at henabled

/-- With EN = 0 and an AArch32 EL1, an instruction whose access depends on EN faults (R52). -/
theorem exec_fault_of_en_closed {s : State} (hi : s.ctx.isa ≠ .a64) (hen : s.en = false)
    (hel1 : s.platform.elState.el1 = .aarch32) {i : Instr} {reg : SysReg32} {access : Access}
    (hacc : accessOf i = some (.a32 reg, access)) (hdep : dependsOnEn reg = true) (hwf : i.wf = true)
    (hisa : i.isa = s.ctx.isa) (hcond : conditionPassed s (condOf i) = true) : ∃ r, exec i s = .fault r :=
  ⟨_, (faultsAreExactlyDeniedAccesses i s _).mpr
    ⟨.a32 reg, access, hacc, hwf, hisa, hcond, acc32_none_of_en_closed hi hdep hen hel1, rfl⟩⟩

/-- Settles O39: the closed EN takes the right of each access away. -/
theorem enDisablesAArch32AccessesUnlessEl1IsAArch64 : Obligations.EnDisablesAArch32AccessesUnlessEl1IsAArch64 := by
  refine ⟨fun cond rt s hrun hen hel1 => ?_, fun rt s hrun hen hel1 => ?_,
    fun s b reg h => acc32_withEn_of_el1_aarch64 reg b h⟩
  · obtain ⟨hisa, hwf, hpass⟩ := checks_of_runsA32 hrun
    have hwfApsr : condAdmitted cond = true := (Bool.and_eq_true_iff.mp hwf).1
    have fault := @exec_fault_of_en_closed s (hisa ▸ Form32.isa_ne_a64 _) hen hel1
    simp only [List.forall_mem_cons]
    exact ⟨fault rfl rfl hwf hisa.symm hpass, fault rfl rfl hwf hisa.symm hpass, fault rfl rfl hwfApsr hisa.symm hpass,
      fault rfl rfl hwf hisa.symm hpass, fault rfl rfl hwf hisa.symm hpass, fault rfl rfl hwf hisa.symm hpass,
      List.forall_mem_nil _⟩
  · obtain ⟨hisa, hwf, hpass⟩ := checks_of_runsT32 hrun
    have fault := @exec_fault_of_en_closed s (hisa ▸ Form32.isa_ne_a64 _) hen hel1
    simp only [List.forall_mem_cons]
    exact ⟨fault rfl rfl hwf hisa.symm hpass, fault rfl rfl hwf hisa.symm hpass, fault rfl rfl rfl hisa.symm hpass,
      fault rfl rfl hwf hisa.symm hpass, fault rfl rfl hwf hisa.symm hpass, fault rfl rfl hwf hisa.symm hpass,
      List.forall_mem_nil _⟩

end Sys2Proof.Machine
end

section
/-! FPSCR written in AArch32 and read in AArch64 (R45, R197, R222). -/

namespace Sys2Proof.Machine

/-- Where FPSCR is granted and enabled, a `VMSR FPSCR` whose value `P_RES_WRITE` accepts writes all its fields (R134). -/
theorem writeSys32_fpscr_next {form : Form32} {rt : BitVec 4} {s : State} {v : Word} (hi : s.ctx.isa = form.isa)
    (hok : (form.condAdmitted && form.rtAdmitted rt) = true) (hp : form.passes s = true) (hgrant : Granted32 .fpscr s)
    (hen : EnabledByEn s) (hv : s.r[rt.toNat]? = some v) (haccept : WriteAccepted s v 0x003FFF60#32 0#32) :
    writeSys32 form .fpscr rt s = .next (writeFields32 v s .fpscr).advance := by
  have hacc : acc32 .fpscr s = .rw :=
    acc32_of_allowed (hi ▸ form.isa_ne_a64) ((allowed32_fpscr_iff s).mpr ⟨hgrant, hen⟩)
  have hnot : s.refusesWrite (reservedBroken (.a32 .fpscr) v) = false :=
    (s.refusesWrite32_eq_false_iff (.a32 .fpscr) v).mpr haccept
  rcases writeSys32_performed hi hok hp hacc with ⟨hbad, -⟩ | ⟨-, hnext⟩
  · simp [State.readR_of_getElem? hv, hnot] at hbad
  · rw [hnext, State.readR_of_getElem? hv]

/-- In AArch64, where accesses are enabled, `MRS` of FPCR and of FPSR read the view of the store (R112, R114). -/
theorem mrs_onlyXWritten {reg : SysReg64} {s : State} (rt : BitVec 5) (hreg : reg = .fpcr ∨ reg = .fpsr)
    (hi : s.ctx.isa = .a64) (hen : a64FpAccessEnabled s = true) :
    ∃ u, readSys64 reg rt s = .next u ∧ OnlyXWritten s u rt (view64 s reg) := by
  have hacc : acc64 reg s ≠ .none := by
    rw [acc64_of_enabled reg hen]
    rcases hreg with rfl | rfl <;> simp [table64]
  exact ⟨_, readSys64_next rt hi hacc, onlyXWritten_writeX s rt _⟩

/-- Settles O42: the written store is what both AArch64 views show, whatever the context. -/
theorem fpscrWrittenInAArch32IsReadInAArch64 : Obligations.FpscrWrittenInAArch32IsReadInAArch64 := by
  intro cond rt s v hgrant hen hv haccept readsBoth
  have hreads : readsBoth (writeFields32 v s .fpscr).advance := by
    intro ctx rt2 hi henabled
    have hfpcr := mrs_onlyXWritten rt2 (.inl rfl) hi henabled
    have hfpsr := mrs_onlyXWritten rt2 (.inr rfl) hi henabled
    have hf : ((writeFields32 v s .fpscr).advance.withCtx ctx).f = writeFpscr v s.f := rfl
    rw [view64, hf, fpcrView_of_control (writeFpscr_control v s.f)] at hfpcr
    rw [view64, hf, fpsrView_of_status (writeFpscr_flags v s.f) (writeFpscr_qc v s.f) (writeFpscr_exc v s.f)] at hfpsr
    exact ⟨hfpcr, hfpsr⟩
  refine ⟨fun hrun => ?_, fun hrun => ?_⟩
  · obtain ⟨hi, hok, hp⟩ := checks_of_runsA32 hrun
    exact ⟨_, writeSys32_fpscr_next hi hok hp hgrant hen hv haccept, hreads⟩
  · obtain ⟨hi, hok, hp⟩ := checks_of_runsT32 hrun
    exact ⟨_, writeSys32_fpscr_next hi hok hp hgrant hen hv haccept, hreads⟩

end Sys2Proof.Machine
end

section
/-! EN in AArch64: what two runs that differ in EN alone answer (R40, R50). -/

namespace Sys2Proof.Machine

/-- Two outcomes of one kind that differ in the EN of the next state at most, and not even there where EN was written. -/
inductive SameButForEn (written : Prop) : Host.Outcome State Fault Refusal → Host.Outcome State Fault Refusal → Prop
  | next (t : State) (en : Bool) (h : written → en = t.en) : SameButForEn written (.next t) (.next { t with en := en })
  | fault (r : Fault) : SameButForEn written (.fault r) (.fault r)
  | refused (r : Refusal) : SameButForEn written (.refused r) (.refused r)

/-- FPEXC32_EL2 is the only register whose AArch64 view shows EN (R38). -/
theorem view64_withEn {reg : SysReg64} (s : State) (b : Bool) (h : reg ≠ .fpexc32El2) :
    view64 { s with en := b } reg = view64 s reg := by
  cases reg
  case fpexc32El2 => exact absurd rfl h
  all_goals rfl

/-- A write to Xt leaves EN where it is. -/
theorem State.writeX_withEn (s : State) (rt : BitVec 5) (v : DWord) (b : Bool) :
    State.writeX { s with en := b } rt v = { s.writeX rt v with en := b } := by
  unfold State.writeX; split <;> rfl

/-- `MRS` of any register but FPEXC32_EL2 does not see EN. -/
theorem readSys64_sameButForEn {written : Prop} (hwritten : ¬ written) {reg : SysReg64} (rt : BitVec 5) {s : State}
    (b : Bool) (hi : s.ctx.isa = .a64) (h : reg ≠ .fpexc32El2) :
    SameButForEn written (readSys64 reg rt s) (readSys64 reg rt { s with en := b }) := by
  by_cases ha : acc64 reg s = .none
  · rw [(readSys64_eq_fault_iff reg rt s _).mpr ⟨hi, ha, rfl⟩,
      (readSys64_eq_fault_iff reg rt { s with en := b } _).mpr ⟨hi, ha, rfl⟩]
    exact .fault _
  · rw [readSys64_next rt hi ha, readSys64_next (s := { s with en := b }) rt hi ha, view64_withEn s b h,
      State.writeX_withEn s rt _ b]
    exact .next _ b (absurd · hwritten)

/-- A register write leaves an EN that it writes the same, and every other EN as it was. -/
theorem writeFields64_withEn (w : Word) (s : State) (reg : SysReg64) (b : Bool) :
    ∃ en : Bool, writeFields64 w { s with en := b } reg = { writeFields64 w s reg with en := en } ∧
      (reg = .fpexc32El2 → en = (writeFields64 w s reg).en) := by
  cases reg
  case fpexc32El2 => exact ⟨enOfWord w, rfl, fun _ => rfl⟩
  all_goals exact ⟨b, rfl, fun h => nomatch h⟩

/-- `MSR` does not see EN, and leaves the same EN where it writes it. -/
theorem writeSys64_sameButForEn {written : Prop} {reg : SysReg64} (hwritten : written → reg = .fpexc32El2)
    (rt : BitVec 5) {s : State} (b : Bool) (hi : s.ctx.isa = .a64) (hreg : reg ∈ [SysReg64.fpcr, .fpsr, .fpexc32El2]) :
    SameButForEn written (writeSys64 reg rt s) (writeSys64 reg rt { s with en := b }) := by
  cases ha : acc64 reg s with
  | none =>
    rw [(writeSys64_eq_fault_iff reg rt s _).mpr ⟨hi, ha, rfl⟩,
      (writeSys64_eq_fault_iff reg rt { s with en := b } _).mpr ⟨hi, ha, rfl⟩]
    exact .fault _
  | ro => exact absurd ha (acc64_ne_ro_of_writable s hreg)
  | rw =>
    cases hw : s.refusesWrite (badWrite64 reg (s.readX rt)) with
    | true =>
      rw [writeSys64_refused hi ha hw, writeSys64_refused (s := { s with en := b }) hi ha hw]
      exact .refused _
    | false =>
      obtain ⟨en, hen, hsame⟩ := writeFields64_withEn ((s.readX rt).setWidth 32) s reg b
      have hnext : writeSys64 reg rt { s with en := b } = .next { (writeFields64 _ s reg).advance with en := en } :=
        (writeSys64_next (s := { s with en := b }) hi ha hw).trans (congrArg (fun t => Host.Outcome.next t.advance) hen)
      rw [writeSys64_next hi ha hw, hnext]
      exact .next _ en fun h => hsame (hwritten h)

/-- In another instruction set an AArch32 access is refused before it looks at anything (R90). -/
theorem access32_wrongInstructionSet {form : Form32} (ok : Bool) (reg : SysReg32) (access : Access) {s : State}
    (p : Host.Outcome State Fault Refusal) (h : s.ctx.isa ≠ form.isa) :
    access32 form ok reg access s p = .refused .wrongInstructionSet := by
  simp [access32, h]

/-- In AArch64 no AArch32 access sees EN. -/
theorem access32_sameButForEn {written : Prop} (form : Form32) (ok : Bool) (reg : SysReg32) (access : Access) {s : State}
    (b : Bool) (p p' : Host.Outcome State Fault Refusal) (hi : s.ctx.isa = .a64) :
    SameButForEn written (access32 form ok reg access s p) (access32 form ok reg access { s with en := b } p') := by
  have hne : s.ctx.isa ≠ form.isa := hi ▸ form.isa_ne_a64.symm
  rw [access32_wrongInstructionSet ok reg access p hne,
    access32_wrongInstructionSet (s := { s with en := b }) ok reg access p' hne]
  exact .refused _

/-- In AArch64 no instruction but `MRS` of FPEXC32_EL2 sees EN. -/
theorem exec_sameButForEn {i : Instr} {s : State} (b : Bool) (hi : s.ctx.isa = .a64) (hreads : readsEn64 i = false) :
    SameButForEn (writesEn i = true) (exec i s) (exec i { s with en := b }) := by
  cases i
  case mrsFpexc32El2 => cases hreads
  case mrsFpcr rt | mrsFpsr rt | mrsMvfr0El1 rt | mrsMvfr1El1 rt | mrsMvfr2El1 rt | mrsIdAa64pfr0El1 rt =>
    exact readSys64_sameButForEn (by simp [writesEn]) rt b hi (by decide)
  case msrFpcr rt | msrFpsr rt | msrFpexc32El2 rt =>
    exact writeSys64_sameButForEn (by simp [writesEn]) rt b hi (by decide)
  case vmrsFpsidA32 | vmrsFpscrA32 | vmrsMvfr0A32 | vmrsMvfr1A32 | vmrsMvfr2A32 | vmrsFpexcA32 | vmsrFpscrA32 |
      vmsrFpexcA32 | vmrsApsrFpscrA32 | vmrsFpsidT32 | vmrsFpscrT32 | vmrsMvfr0T32 | vmrsMvfr1T32 | vmrsMvfr2T32 |
      vmrsFpexcT32 | vmsrFpscrT32 | vmsrFpexcT32 | vmrsApsrFpscrT32 =>
    exact access32_sameButForEn _ _ _ _ b _ _ hi
  all_goals exact .refused _

/-- A write to Xt leaves every other X register alone. -/
theorem State.writeX_getElem?_of_ne (s : State) {t : BitVec 5} (v : DWord) {k : Nat} (hk : k ≠ t.toNat) :
    (s.writeX t v).x[k]? = s.x[k]? := by
  unfold State.writeX
  split
  next ht => exact Vector.getElem?_set_ne ht hk.symm
  next => rfl

/-- Settles O38: `MRS` of FPEXC32_EL2 reads EN into Xt, no other instruction sees it, and both names show the one bit. -/
theorem enHasNoEffectInAArch64 : Obligations.EnHasNoEffectInAArch64 := by
  refine ⟨fun i s b hi hreads => ?_, fun rt s b hi => ?_, fun s v => fpexcView_enOfWord v,
    fun s v => congrArg (BitVec.setWidth 64) (fpexcView_enOfWord v), fun s => rfl⟩
  · have hsame := exec_sameButForEn b hi hreads
    generalize exec i s = o, exec i { s with en := b } = o' at hsame ⊢
    cases hsame with
    | next t en h => exact ⟨rfl, h⟩
    | fault r => rfl
    | refused r => rfl
  · have hrun (s' : State) : exec (.mrsFpexc32El2 rt) s' = readSys64 .fpexc32El2 rt s' := rfl
    rw [hrun, hrun]
    by_cases ha : acc64 .fpexc32El2 s = .none
    · rw [(readSys64_eq_fault_iff _ rt s _).mpr ⟨hi, ha, rfl⟩,
        (readSys64_eq_fault_iff _ rt { s with en := b } _).mpr ⟨hi, ha, rfl⟩]
    · rw [readSys64_next rt hi ha, readSys64_next (s := { s with en := b }) rt hi ha, State.writeX_withEn s rt _ b]
      refine ⟨?_, State.writeX_en s rt _, fun k hk => ?_⟩
      · rw [State.writeX_eq s rt (view64 { s with en := b } _), State.writeX_eq s rt (view64 s _)]
        rfl
      · exact (State.writeX_getElem?_of_ne s _ hk).trans (State.writeX_getElem?_of_ne s _ hk).symm

end Sys2Proof.Machine
end

section
/-! The step: where it stops before an instruction runs (R23, R73, R101), and what a completed one keeps (R14, R21, R80). -/

namespace Sys2Proof.Machine

/-- A completed step ran one instruction. -/
theorem exec_of_step_next {s t : State} (h : step s = .next t) : ∃ i, exec i s = .next t := by
  rcases step_cases s with ⟨-, h'⟩ | ⟨-, h'⟩ | ⟨bytes, -, ⟨e, -, h'⟩ | ⟨i, -, h'⟩⟩ <;> rw [h'] at h
  · cases h
  · cases h
  · cases h
  · exact ⟨i, h⟩

/-- A completed instruction keeps the invariant of a run: only the program counter moves, and in AArch32 it keeps 32 bits, at
the free value past the top of the address space too (R14, R23). -/
theorem exec_keeps_inv {i : Instr} {s t : State} (hs : s.Inv) (h : exec i s = .next t) : t.Inv := by
  obtain ⟨hwf, hallowed, -⟩ := hs
  obtain ⟨hctx, hmem, -, -, -, hplatform⟩ := noInstructionTouchesContextMemoryOrBank i s t h
  obtain ⟨-, -, hpc⟩ := completedInstructionsAdvanceThePcByFour i s t h
  refine ⟨hmem ▸ hwf, ?_, fun haarch32 => hpc fun hi => ?_⟩
  · rwa [State.contextAllowed, hctx, hplatform]
  · simp [hctx, hi, Isa.execState] at haarch32

/-- Settles O46: a completed step is a completed instruction, which keeps the program text, the context and the width of the
program counter. -/
theorem everyStepKeepsTheInvariant : Obligations.EveryStepKeepsTheInvariant := by
  intro s t hs h
  obtain ⟨i, hexec⟩ := exec_of_step_next h
  obtain ⟨hctx, hmem, -⟩ := noInstructionTouchesContextMemoryOrBank i s t hexec
  exact ⟨exec_keeps_inv hs hexec, hmem, hctx⟩

/-! Where the fetch stops (R23, R73). -/

/-- A range of addresses in which one is not listed reads as no bytes. -/
theorem Memory.readBytes_eq_none {m : Memory} (limit : Nat) {a k n : Nat} (hk : k < n) (h : m.read (a + k) = none) :
    m.readBytes limit a n = none := by
  induction n generalizing a k with
  | zero => omega
  | succ n ih =>
    rw [Memory.readBytes]
    split
    · cases k with
      | zero => simp [show m.read a = none from h]
      | succ k => simp [ih (a := a + 1) (k := k) (by omega) (by rwa [Nat.add_right_comm])]
    · rfl

/-- A misaligned fetch is refused (R73). -/
theorem fetch_of_misaligned {s : State} (h : s.fetchAddr % fetchAlignment s.ctx.isa ≠ 0) :
    fetch s = .refused .pcMisaligned := by
  rw [fetch, if_pos h]

/-- An aligned fetch is stuck where one of the four bytes is outside the loaded program (R23). -/
theorem fetch_of_missing_byte {s : State} {k : Nat} (ha : s.fetchAddr % fetchAlignment s.ctx.isa = 0) (hk : k < 4)
    (h : s.mem.read (s.fetchAddr + k) = none) : fetch s = .fault (.fetchOutsideProgram s.pc) := by
  simp [fetch, ha, Memory.readBytes_eq_none _ hk h]

/-- Settles O45: the step stops with the outcome of its fetch, or else with the decoder's refusal. -/
theorem fetchStopsWhereNoInstructionIs : Obligations.FetchStopsWhereNoInstructionIs := by
  refine ⟨fun s h => ?_, fun s k ha hk h => ?_, fun s bytes e hf hd => ?_⟩
  · simp [step, fetch_of_misaligned h]
  · simp [step, fetch_of_missing_byte ha hk h]
  · simp [step, hf, hd]

end Sys2Proof.Machine
end

section
/-! A register written by `MSR` and read by the next `MRS` (R77, R222). -/

namespace Sys2Proof.Machine

/-- The lower half of a doubleword under a mask, zero-extended, is the doubleword under the zero-extended mask. -/
theorem setWidth_and_setWidth (v : DWord) (m : Word) : (v.setWidth 32 &&& m).setWidth 64 = v &&& m.setWidth 64 := by
  refine BitVec.eq_of_getLsbD_eq fun i hi => ?_
  by_cases h : i < 32
  · simp [h, hi]
  · simp [h, BitVec.getLsbD_of_ge m i (by omega)]

/-- A register view does not see the program counter. -/
@[simp] theorem view64_advance (s : State) (reg : SysReg64) : view64 s.advance reg = view64 s reg := by
  cases reg <;> rfl

/-- No register write changes an access right, nor does the advance. -/
theorem acc64_writeFields64_advance (reg : SysReg64) (w : Word) (s : State) (written : SysReg64) :
    acc64 reg (writeFields64 w s written).advance = acc64 reg s := by
  cases written <;> rfl

/-- An allowed `MSR` whose value `P_RES_WRITE` accepts completes, and the next `MRS` of the register reads the fields it
wrote (R110, R111). -/
theorem writeSys64_then_readSys64 {reg : SysReg64} {rt : BitVec 5} (rt2 : BitVec 5) {s : State} {v : DWord}
    (hi : s.ctx.isa = .a64) (hacc : acc64 reg s = .rw) (hv : XHolds s rt v)
    (haccept : WriteAccepted s v (0xFFFFFFFF#32 ++ res0Mask (.a64 reg)) ((res1Mask (.a64 reg)).setWidth 64)) :
    ∃ t u, writeSys64 reg rt s = .next t ∧ readSys64 reg rt2 t = .next u ∧
      OnlyXWritten t u rt2 (view64 (writeFields64 (v.setWidth 32) s reg) reg) := by
  have hread : s.readX rt = v := readX_of_xHolds hv
  have hwrite : writeSys64 reg rt s = .next (writeFields64 (v.setWidth 32) s reg).advance := by
    rw [← hread] at haccept ⊢
    exact writeSys64_next hi hacc ((s.refusesWrite64_eq_false_iff reg _).mpr haccept)
  refine ⟨_, _, hwrite, readSys64_next rt2 (by simpa using hi) ?_, ?_⟩
  · simp [acc64_writeFields64_advance, hacc]
  · rw [view64_advance]
    exact onlyXWritten_writeX _ _ _

/-- A written FPCR reads back in Xt under its writable mask (R112, R113). -/
theorem view64_writeFields64_fpcr (v : DWord) (s : State) :
    view64 (writeFields64 (v.setWidth 32) s .fpcr) .fpcr = v &&& 0x07C00000#64 := by
  have hview : fpcrView (writeFpcr (v.setWidth 32) s.f) = v.setWidth 32 &&& 0x07C00000#32 :=
    fpcrView_of_control (writeFpcr_control _ _)
  rw [view64, writeFields64, hview, setWidth_and_setWidth]
  rfl

/-- A written FPSR reads back in Xt under its writable mask (R114, R115). -/
theorem view64_writeFields64_fpsr (v : DWord) (s : State) :
    view64 (writeFields64 (v.setWidth 32) s .fpsr) .fpsr = v &&& 0xF800009F#64 := by
  have hview : fpsrView (writeFpsr (v.setWidth 32) s.f) = v.setWidth 32 &&& 0xF800009F#32 :=
    fpsrView_of_status (writeFpsr_flags _ _) (writeFpsr_qc _ _) (writeFpsr_exc _ _)
  rw [view64, writeFields64, hview, setWidth_and_setWidth]
  rfl

/-- A written EN reads back in Xt at its place, with the RES1 bits of FPEXC32_EL2 (R119, R120). -/
theorem view64_writeFields64_fpexc32El2 (v : DWord) (s : State) :
    view64 (writeFields64 (v.setWidth 32) s .fpexc32El2) .fpexc32El2 = (v &&& 0x40000000#64) ||| 0x700#64 := by
  rw [view64, writeFields64, fpexcView_enOfWord, BitVec.setWidth_or, setWidth_and_setWidth]
  rfl

/-- Settles O41: the three registers are writable where the statement allows the access, and each view shows what was
written. -/
theorem aWriteIsSeenByTheNextInstruction : Obligations.AWriteIsSeenByTheNextInstruction := by
  intro rt rt2 s v hi hen hv
  refine ⟨fun haccept => ?_, fun haccept => ?_, fun hel haccept => ?_⟩
  · rw [← view64_writeFields64_fpcr v s]
    exact writeSys64_then_readSys64 rt2 hi (acc64_of_enabled .fpcr hen) hv haccept
  · rw [← view64_writeFields64_fpsr v s]
    exact writeSys64_then_readSys64 rt2 hi (acc64_of_enabled .fpsr hen) hv haccept
  · have hacc : acc64 .fpexc32El2 s = .rw := by
      rw [acc64_of_enabled _ hen]
      rcases hel with h | h <;> rw [h] <;> rfl
    rw [← view64_writeFields64_fpexc32El2 v s]
    exact writeSys64_then_readSys64 rt2 hi hacc hv haccept

end Sys2Proof.Machine
end

section
/-! The decoder on the encoder's words and the encoder on the decoder's instructions (R92 to R97, R101): each layout's round
trip once for all of its registers, and what the decoder answers on every A32 and T32 word. -/

namespace Sys2Proof

open Machine (SysReg64 Form32)

/-! A64 words (R92, R93). -/

/-- The word of an `MRS` decodes to it (R92, R101). -/
theorem decodeA64_sysWord_mrs (reg : SysReg64) (rt : BitVec 5) : decodeA64 (sysWord 1 reg rt) = .ok (mrsInstr rt reg) := by
  simp [decodeA64, sysWord_fixed]

/-- The word of an `MSR` decodes to it, or is refused where the table has no such row (R92, R101). -/
theorem decodeA64_sysWord_msr (reg : SysReg64) (rt : BitVec 5) :
    decodeA64 (sysWord 0 reg rt) = (msrInstr rt reg).elim (.error (.notInSource (sysWord 0 reg rt))) .ok := by
  simp only [decodeA64, sysWord_fixed]
  cases h : msrInstr rt reg <;> simp [h]

/-- The register an `MRS` names and its Rt are in its word. -/
theorem encode_mrsInstr (rt : BitVec 5) (reg : SysReg64) : encode (mrsInstr rt reg) = sysWord 1 reg rt := by
  cases reg <;> rfl

/-- `MRS` belongs to A64, whose instructions are all well formed (R97). -/
theorem mrsInstr_wf (rt : BitVec 5) (reg : SysReg64) : (mrsInstr rt reg).wf = true ∧ (mrsInstr rt reg).isa = .a64 := by
  cases reg <;> exact ⟨rfl, rfl⟩

/-- An `MSR` is a well-formed A64 instruction, and its register and Rt are in its word. -/
theorem msrInstr_spec {rt : BitVec 5} {reg : SysReg64} {i : Instr} (h : msrInstr rt reg = some i) :
    i.wf = true ∧ i.isa = .a64 ∧ encode i = sysWord 0 reg rt := by
  cases reg <;> cases h <;> exact ⟨rfl, rfl, rfl⟩

/-- An A64 word that decodes is an `MRS` or `MSR` word of the instruction it gives. -/
theorem decodeA64_ok {w : Word} {i : Instr} (h : decodeA64 w = .ok i) : i.wf = true ∧ i.isa = .a64 ∧ encode i = w := by
  rw [decodeA64] at h
  split at h
  next hread =>
    split at h
    next reg hreg =>
      cases h
      obtain ⟨hwf, hisa⟩ := mrsInstr_wf (w.extractLsb' 0 5) reg
      exact ⟨hwf, hisa, (encode_mrsInstr _ _).trans (eq_sysWord (l := 1#1) (registerOf_eq_some hreg) hread).symm⟩
    next => cases h
  next =>
    split at h
    next hwrite =>
      split at h
      next j hj =>
        cases h
        obtain ⟨reg, hreg, hmsr⟩ := Option.bind_eq_some_iff.mp hj
        obtain ⟨hwf, hisa, henc⟩ := msrInstr_spec hmsr
        exact ⟨hwf, hisa, henc.trans (eq_sysWord (l := 0#1) (registerOf_eq_some hreg) hwrite).symm⟩
      next => cases h
    next => cases h

/-- An A64 word without the fixed bits of `MRS` and `MSR` is not in source (R92, R101). -/
theorem decodeA64_of_fixed_ne {w : Word} (hread : w &&& 0xFFF00000#32 ≠ 0xD5300000#32)
    (hwrite : w &&& 0xFFF00000#32 ≠ 0xD5100000#32) : decodeA64 w = .error (.notInSource w) := by
  rw [decodeA64, if_neg hread, if_neg hwrite]

/-- A selector that is no register's names none (R93). -/
theorem registerOf_eq_none {sel : Selector} (h : ∀ reg, selectorOf reg ≠ sel) : registerOf sel = none :=
  Option.eq_none_iff_forall_ne_some.mpr fun reg hreg => h reg (registerOf_eq_some hreg)

/-- An A64 word whose selector names no register is not in source (R93, R101). -/
theorem decodeA64_of_registerOf_none {w : Word} (h : registerOf (selectorField w) = none) :
    decodeA64 w = .error (.notInSource w) := by
  simp [decodeA64, h]

/-! A32 and T32 words (R94 to R97). -/

/-- The register numbers of R96 that name a register; its last row leaves the others out. -/
def vfpRegisters : List (BitVec 4) := [0#4, 1#4, 5#4, 6#4, 7#4, 8#4, 9#4, 10#4]

/-- Everything the decoder answers on a word `w` of AArch32, `fits` saying that `w` has the layout of the form: a word outside
the spec, `VMRS APSR_nzcv, FPSCR`, or an access with a register, which R97 may exclude. -/
inductive VfpDecoded (form : Form32) (fits : Prop) (w : Word) (result : Except DecodeRefusal Instr) : Prop
  | outside (why : ¬ fits ∨ regField w ∉ vfpRegisters) (run : result = .error (.notInSource w))
  | flags (i : Instr) (layout : fits) (fpscr : lField w = true ∧ regField w = 1#4) (rt : rtField w = 15#4)
      (run : result = .ok i) (isa : i.isa = form.isa) (wf : i.wf = form.condAdmitted) (word : encode i = w)
  | access (i : Instr) (layout : fits) (reg_mem : regField w ∈ vfpRegisters)
      (run : result = permitRt (form.rtAdmitted (rtField w)) w i) (isa : i.isa = form.isa)
      (wf : i.wf = (form.condAdmitted && form.rtAdmitted (rtField w))) (word : encode i = w)

/-- The register numbers of R96, as numbers. -/
theorem regField_toNat_of_mem {w : Word} (h : regField w ∈ vfpRegisters) :
    (regField w).toNat = 0 ∨ (regField w).toNat = 1 ∨ (regField w).toNat = 5 ∨ (regField w).toNat = 6 ∨
      (regField w).toNat = 7 ∨ (regField w).toNat = 8 ∨ (regField w).toNat = 9 ∨ (regField w).toNat = 10 := by
  revert h
  generalize regField w = reg
  revert reg
  decide

/-- A table row that names the instruction of its word, at the row's L bit and register number, is an access with a
register. -/
theorem VfpDecoded.access_of_row {form : Form32} {fits : Prop} {w : Word} {cond : BitVec 4} {l : Bool} {n : Nat} {i : Instr}
    (layout : fits) (hw : w = vfpWord cond (BitVec.ofBool (lField w)) (regField w) (rtField w)) (hl : lField w = l)
    (hreg : (regField w).toNat = n) (isa : i.isa = form.isa)
    (wf : i.wf = (form.condAdmitted && form.rtAdmitted (rtField w))) (hmem : BitVec.ofNat 4 n ∈ vfpRegisters)
    (word : encode i = vfpWord cond (BitVec.ofBool l) (BitVec.ofNat 4 n) (rtField w)) :
    VfpDecoded form fits w (permitRt (form.rtAdmitted (rtField w)) w i) := by
  have hfield : BitVec.ofNat 4 n = regField w := by simp [← hreg]
  rw [hfield] at hmem word
  exact .access i layout hmem rfl isa wf (word.trans (hl ▸ hw.symm))

/-- The row of `VMRS APSR_nzcv, FPSCR` names the instruction of its word (R140). -/
theorem VfpDecoded.flags_of_row {form : Form32} {fits : Prop} {w : Word} {cond : BitVec 4} {i : Instr} (layout : fits)
    (hw : w = vfpWord cond (BitVec.ofBool (lField w)) (regField w) (rtField w)) (hl : lField w = true)
    (hreg : (regField w).toNat = 1) (hrt : rtField w = 15#4) (isa : i.isa = form.isa) (wf : i.wf = form.condAdmitted)
    (word : encode i = vfpWord cond 1 0b0001#4 15#4) : VfpDecoded form fits w (.ok i) := by
  have hfield : regField w = 1#4 := BitVec.eq_of_toNat_eq hreg
  rw [hl, hfield, hrt] at hw
  exact .flags i layout ⟨hl, hfield⟩ hrt rfl isa wf (word.trans hw.symm)

/-- What the A32 decoder answers, row by row of R96. -/
theorem decodeA32_cases (w : Word) :
    VfpDecoded (.a32 (condField w)) (w &&& 0x0FE00FFF#32 = 0x0EE00A10#32 ∧ condAdmitted (condField w) = true) w
      (decodeA32 w) := by
  by_cases hfits : w &&& 0x0FE00FFF#32 = 0x0EE00A10#32 ∧ condAdmitted (condField w) = true
  · have hw := eq_vfpWord hfits.1
    rw [decodeA32, if_pos hfits, vfpA32]
    split
    case h_2 hl hreg =>
      split
      next hrt => exact .flags_of_row hfits hw hl hreg hrt rfl rfl rfl
      next => exact .access_of_row hfits hw hl hreg rfl rfl (by decide) rfl
    case h_17 =>
      refine .outside (.inr fun hmem => ?_) rfl
      have hnat := regField_toNat_of_mem hmem
      cases hl : lField w <;> grind
    all_goals next hl hreg => exact .access_of_row hfits hw hl hreg rfl rfl (by decide) rfl
  · exact .outside (.inl hfits) (if_neg hfits)

/-- What the T32 decoder answers, row by row of R96. -/
theorem decodeT32_cases (w : Word) :
    VfpDecoded .t32 (w &&& 0xFFE00FFF#32 = 0xEEE00A10#32) w (decodeT32 w) := by
  by_cases hfits : w &&& 0xFFE00FFF#32 = 0xEEE00A10#32
  · have hw := eq_vfpWordT32 hfits
    rw [decodeT32, if_pos hfits, vfpT32]
    split
    case h_2 hl hreg =>
      split
      next hrt => exact .flags_of_row hfits hw hl hreg hrt rfl rfl rfl
      next => exact .access_of_row hfits hw hl hreg rfl rfl (by decide) rfl
    case h_17 =>
      refine .outside (.inr fun hmem => ?_) rfl
      have hnat := regField_toNat_of_mem hmem
      cases hl : lField w <;> grind
    all_goals next hl hreg => exact .access_of_row hfits hw hl hreg rfl rfl (by decide) rfl
  · exact .outside (.inl hfits) (if_neg hfits)

/-- An instruction that R97 lets through is the row's, with an admitted Rt. -/
theorem permitRt_eq_ok {ok : Bool} {w : Word} {i j : Instr} (h : permitRt ok w i = .ok j) : ok = true ∧ i = j := by
  cases ok <;> cases h
  exact ⟨rfl, rfl⟩

namespace VfpDecoded

variable {form : Form32} {fits : Prop} {w : Word} {result : Except DecodeRefusal Instr}

/-- A word that decodes has the layout, and is the word of the well-formed instruction it gives. -/
theorem of_ok (h : VfpDecoded form fits w result) {i : Instr} (hi : result = .ok i) (hc : fits → form.condAdmitted = true) :
    i.wf = true ∧ i.isa = form.isa ∧ encode i = w := by
  cases h with
  | outside _ run => cases run.symm.trans hi
  | flags j layout _ _ run isa wf word =>
    cases run.symm.trans hi
    exact ⟨wf.trans (hc layout), isa, word⟩
  | access j layout _ run isa wf word =>
    obtain ⟨hrt, rfl⟩ := permitRt_eq_ok (run.symm.trans hi)
    exact ⟨by rw [wf, hc layout, hrt]; rfl, isa, word⟩

/-- A word without the layout, or with a number of R96's last row, is not in source (R98). -/
theorem notInSource (h : VfpDecoded form fits w result) (hout : ¬ fits ∨ regField w ∉ vfpRegisters) :
    result = .error (.notInSource w) := by
  cases h with
  | outside _ run => exact run
  | flags _ layout fpscr => simp [layout, fpscr, vfpRegisters] at hout
  | access _ layout reg_mem => simp [layout, reg_mem] at hout

/-- A word of the layout that names a register of R96 and an Rt that R97 excludes is refused for its Rt, unless it is
`VMRS APSR_nzcv, FPSCR`. -/
theorem rtNotPermitted (h : VfpDecoded form fits w result) (layout : fits) (reg_mem : regField w ∈ vfpRegisters)
    (hrt : form.rtAdmitted (rtField w) = false) (hflags : ¬ ((lField w = true ∧ regField w = 1#4) ∧ rtField w = 15#4)) :
    result = .error (.rtNotPermitted w) := by
  cases h with
  | outside why => simp [layout, reg_mem] at why
  | flags _ _ fpscr rt => exact absurd ⟨fpscr, rt⟩ hflags
  | access _ _ _ run => rw [run, hrt]; rfl

end VfpDecoded

/-! The round trips in every instruction set. -/

/-- An A32 word whose row admits its fields decodes to the row's instruction (R94). -/
theorem decodeA32_vfpWord {cond : BitVec 4} {l : BitVec 1} {reg rt : BitVec 4} {i : Instr}
    (hcond : condAdmitted cond = true) (hrow : vfpA32 (vfpWord cond l reg rt) = .ok i) :
    decodeA32 (vfpWord cond l reg rt) = .ok i := by
  rw [decodeA32, condField_vfpWord, if_pos ⟨vfpWord_fixed _ _ _ _, hcond⟩, hrow]

/-- A T32 word whose row admits its fields decodes to the row's instruction (R95). -/
theorem decodeT32_vfpWordT32 {l : BitVec 1} {reg rt : BitVec 4} {i : Instr}
    (hrow : vfpT32 (vfpWordT32 l reg rt) = .ok i) : decodeT32 (vfpWordT32 l reg rt) = .ok i := by
  rw [decodeT32, if_pos (vfpWordT32_fixed _ _ _), hrow]

/-- The word of a well-formed instruction decodes to it in its instruction set: the row its fields select is its own. -/
theorem decodeWord_encode {i : Instr} (hwf : i.wf = true) : decodeWord i.isa (encode i) = .ok i := by
  cases i
  case mrsFpcr | mrsFpsr | mrsMvfr0El1 | mrsMvfr1El1 | mrsMvfr2El1 | mrsFpexc32El2 | mrsIdAa64pfr0El1 =>
    exact decodeA64_sysWord_mrs _ _
  case msrFpcr | msrFpsr | msrMvfr0El1 | msrMvfr1El1 | msrMvfr2El1 | msrFpexc32El2 => exact decodeA64_sysWord_msr _ _
  case vmrsApsrFpscrA32 => exact decodeA32_vfpWord hwf (by simp [vfpA32])
  case vmrsFpscrA32 =>
    obtain ⟨hcond, hrt⟩ := Bool.and_eq_true_iff.mp hwf
    have hne := bne_iff_ne.mp hrt
    exact decodeA32_vfpWord hcond (by simp [vfpA32, permitRt, hrt, hne])
  case vmrsFpsidA32 | vmsrFpsidA32 | vmsrFpscrA32 | vmrsMvfr0A32 | vmsrMvfr0A32 | vmrsMvfr1A32 | vmsrMvfr1A32 |
      vmrsMvfr2A32 | vmsrMvfr2A32 | vmrsFpexcA32 | vmsrFpexcA32 | vmrsFpinstA32 | vmsrFpinstA32 | vmrsFpinst2A32 |
      vmsrFpinst2A32 =>
    obtain ⟨hcond, hrt⟩ := Bool.and_eq_true_iff.mp hwf
    exact decodeA32_vfpWord hcond (by simp [vfpA32, permitRt, hrt])
  case vmrsApsrFpscrT32 => exact decodeT32_vfpWordT32 (by simp [vfpT32, vfpWordT32])
  case vmrsFpscrT32 =>
    have hne := bne_iff_ne.mp (Bool.and_eq_true_iff.mp hwf).2
    exact decodeT32_vfpWordT32 (by simp [vfpT32, vfpWordT32, permitRt, show rtAdmittedT32 _ = true from hwf, hne])
  case vmrsFpsidT32 | vmsrFpsidT32 | vmsrFpscrT32 | vmrsMvfr0T32 | vmsrMvfr0T32 | vmrsMvfr1T32 | vmsrMvfr1T32 |
      vmrsMvfr2T32 | vmsrMvfr2T32 | vmrsFpexcT32 | vmsrFpexcT32 | vmrsFpinstT32 | vmsrFpinstT32 | vmrsFpinst2T32 |
      vmsrFpinst2T32 =>
    exact decodeT32_vfpWordT32 (by simp [vfpT32, vfpWordT32, permitRt, show rtAdmittedT32 _ = true from hwf])

/-- A word that decodes is the word of the instruction it gives, which is well formed and of that instruction set. -/
theorem decodeWord_ok {isa : Machine.Isa} {w : Word} {i : Instr} (h : decodeWord isa w = .ok i) :
    i.wf = true ∧ i.isa = isa ∧ encode i = w := by
  cases isa with
  | a64 => exact decodeA64_ok h
  | a32 => exact (decodeA32_cases w).of_ok h And.right
  | t32 => exact (decodeT32_cases w).of_ok h fun _ => rfl

end Sys2Proof
end

section
/-! The decoder and the encoder are inverse, what the decoder refuses, and the step that runs what it gives (R90 to R101). -/

namespace Sys2Proof

/-- Settles O6: the bytes read back as the word, and the word decodes by the row of its layout. -/
theorem decodeOfEncodeIsTheInstruction : Obligations.DecodeOfEncodeIsTheInstruction := by
  intro i rest hwf
  rw [encodeBytes, decodeBytes_bytesOfWord]
  exact decodeWord_encode hwf

/-- Settles O7, by what each decoder can answer. -/
theorem encodeOfDecodeIsTheWord : Obligations.EncodeOfDecodeIsTheWord := fun _ _ _ => decodeWord_ok

/-- Settles O8: each word is the word the encoder gives the instruction. -/
theorem wordsWrittenFromTheTablesDecode : Obligations.WordsWrittenFromTheTablesDecode :=
  ⟨decodeWord_encode (i := .mrsFpcr 0#5) rfl, decodeWord_encode (i := .msrFpsr 31#5) rfl,
    decodeWord_encode (i := .msrFpexc32El2 0#5) rfl, decodeWord_encode (i := .vmrsFpscrA32 0b1110#4 2#4) rfl,
    decodeWord_encode (i := .vmrsFpscrA32 0b0000#4 0#4) rfl, decodeWord_encode (i := .vmrsApsrFpscrA32 0b1110#4) rfl,
    decodeOfEncodeIsTheInstruction (.vmrsFpscrT32 0#4) [] rfl, decodeOfEncodeIsTheInstruction (.mrsFpcr 5#5) [] rfl⟩

/-- Settles O9: outside the layouts, the selectors and the register numbers no row of a decoder is left. -/
theorem wordsOutsideTheSpecAreRefusedByName : Obligations.WordsOutsideTheSpecAreRefusedByName := by
  refine ⟨fun w => decodeA64_of_fixed_ne, fun w hsel => decodeA64_of_registerOf_none (registerOf_eq_none hsel),
    fun w hout => (decodeA32_cases w).notInSource (.inl fun ⟨hfixed, hcond⟩ => ?_),
    fun w hout => (decodeT32_cases w).notInSource (.inl hout),
    fun w hreg => ⟨(decodeA32_cases w).notInSource (.inr hreg), (decodeT32_cases w).notInSource (.inr hreg)⟩,
    fun rt => ?_⟩
  · exact hout.elim (absurd hfixed) (bne_iff_ne.mp hcond)
  · have hword : 0xD5180400#32 ||| rt.setWidth 32 = sysWord 0 .idAa64pfr0El1 rt := by revert rt; decide
    rw [hword]
    exact decodeA64_sysWord_msr .idAa64pfr0El1 rt

/-- Settles O10: the row of the word's register is there, and R97 excludes its Rt. -/
theorem excludedRegisterNumbersAreRefusedByTheDecoder : Obligations.ExcludedRegisterNumbersAreRefusedByTheDecoder := by
  refine ⟨fun w hfixed hcond hreg hrt hnot => ?_, fun w hfixed hreg hrt => ?_⟩
  · refine (decodeA32_cases w).rtNotPermitted ⟨hfixed, bne_iff_ne.mpr hcond⟩ hreg ?_ fun hflags => hnot hflags.1
    rw [hrt]; rfl
  · have hexcluded : rtAdmittedT32 (rtField w) = false := by rcases hrt with hrt | ⟨hrt, -⟩ <;> rw [hrt] <;> rfl
    refine (decodeT32_cases w).rtNotPermitted hfixed hreg hexcluded fun ⟨hfpscr, h15⟩ => ?_
    rcases hrt with hrt | ⟨-, hnot⟩
    · simp [hrt] at h15
    · exact hnot hfpscr

namespace Machine

/-- Settles O43: the fetch reads the instruction's bytes, and they decode to it. -/
theorem aStepRunsTheDecodedInstruction : Obligations.AStepRunsTheDecodedInstruction := by
  intro i s hwf hisa halign hbytes
  have hfetch : fetch s = .next (encodeBytes i) := by simp [fetch, hisa, halign, hbytes]
  refine step_of_fetch hfetch ?_
  simpa [hisa] using decodeOfEncodeIsTheInstruction i [] hwf

/-- A table number that is read as an instruction decodes to it where it was laid out. -/
theorem decodeBytes_of_decodeTableWord {nbits w : Nat} {i : Instr} (h : decodeTableWord nbits w = some i) :
    decodeBytes (tableIsa (tableWord nbits w)) (bytesOfWord (tableIsa (tableWord nbits w)) (tableWord nbits w)) = .ok i := by
  rw [decodeTableWord] at h
  split at h
  next hd => cases h; exact hd
  next => cases h

/-- Settles O44: the fetch reads the placed word, in the instruction set the table number is read in. -/
theorem thePlacedWordIsTheNextInstruction : Obligations.ThePlacedWordIsTheNextInstruction := fun s _ _ h =>
  step_of_fetch (fetch_placeWord s _) (decodeBytes_of_decodeTableWord h)

end Machine

end Sys2Proof
end

section
/-! `MRS` and `MSR` of each AArch64 register (R112 to R122): the words, where each access is allowed, and what a read and a
write then do, said once for every register. -/

namespace Sys2Proof.Machine

/-! The words (R92, R93). -/

/-- The word of an access is its register's word with the number of Xt in the lowest five bits (R92). -/
theorem sysWord_eq_or (l : BitVec 1) (reg : SysReg64) (rt : BitVec 5) :
    sysWord l reg rt = sysWord l reg 0#5 ||| rt.setWidth 32 := by
  refine BitVec.eq_of_getLsbD_eq fun i hi => ?_
  rw [BitVec.getLsbD_or, BitVec.getLsbD_setWidth, sysWord_getLsbD, sysWord_getLsbD]
  by_cases h : i < 5
  · simp [h, hi]
  · simp [h, BitVec.getLsbD_of_ge rt i (by omega)]

/-- The word of an `MSR` in the table, written with its Xt apart, decodes to it (R101). -/
theorem decodeWord_msr_or {reg : SysReg64} {rt : BitVec 5} {i : Instr} (h : msrInstr rt reg = some i) :
    decodeWord .a64 (sysWord 0 reg 0#5 ||| rt.setWidth 32) = .ok i := by
  rw [← sysWord_eq_or, decodeWord, decodeA64_sysWord_msr, h]
  rfl

/-! Where the accesses are allowed (R60). -/

/-- FPCR and FPSR are accessible at every level (R27, R30). -/
theorem acc64_ne_none_iff_enabled {reg : SysReg64} (s : State) (hreg : reg = .fpcr ∨ reg = .fpsr) :
    acc64 reg s ≠ .none ↔ a64FpAccessEnabled s = true := by
  rw [acc64_ne_none_iff]
  rcases hreg with rfl | rfl <;> simp [table64]

/-- The identification registers are accessible above EL0 (R33, R35, R37, R121). -/
theorem acc64_ne_none_iff_above_el0 {reg : SysReg64} (s : State)
    (hreg : reg ∈ [SysReg64.mvfr0El1, .mvfr1El1, .mvfr2El1, .idAa64pfr0El1]) :
    acc64 reg s ≠ .none ↔ a64FpAccessEnabled s = true ∧ s.ctx.el ≠ .el0 := by
  have htable (el : El) : table64 reg el ≠ .none ↔ el ≠ .el0 := by
    simp only [List.mem_cons, List.not_mem_nil, or_false] at hreg
    rcases hreg with rfl | rfl | rfl | rfl <;> cases el <;> decide
  rw [acc64_ne_none_iff, htable]

/-- FPEXC32_EL2 is accessible at EL2 and EL3 (R39). -/
theorem acc64_fpexc32El2_ne_none_iff (s : State) :
    acc64 .fpexc32El2 s ≠ .none ↔ a64FpAccessEnabled s = true ∧ (s.ctx.el = .el2 ∨ s.ctx.el = .el3) := by
  have htable (el : El) : table64 .fpexc32El2 el ≠ .none ↔ el = .el2 ∨ el = .el3 := by cases el <;> decide
  rw [acc64_ne_none_iff, htable]

/-! What the views are in Xt. -/

/-- FPEXC32_EL2 zero-extended is the formula of R119. -/
theorem fpexcView_eq_formula (en : Bool) : (fpexcView en).setWidth 64 = fpexcFormula en := by
  cases en <;> decide

/-- FPCR has no bit outside its writable mask (R26). -/
theorem fpcrView_and_mask (f : FieldStore) : fpcrView f &&& 0x07C00000#32 = fpcrView f :=
  (fpcrView_of_control (controlOfWord_fpcrView f).symm).symm

/-- FPSR has no bit outside its writable mask (R29). -/
theorem fpsrView_and_mask (f : FieldStore) : fpsrView f &&& 0xF800009F#32 = fpsrView f := by
  have hf : f = writeFpsr (fpsrView f) f := (writeFpsr_fpsrView f).symm
  exact (fpsrView_of_status (congrArg FieldStore.flags hf) (congrArg FieldStore.qc hf) (congrArg FieldStore.exc hf)).symm

/-- The FPCR that Xt takes has no other bit either (R112). -/
theorem fpcrFormula_and_mask (f : FieldStore) : fpcrFormula f &&& 0x07C00000#64 = fpcrFormula f := by
  rw [← fpcrView_eq_formula]
  exact BitVec.setWidth_and.symm.trans (congrArg _ (fpcrView_and_mask f))

/-- The FPSR that Xt takes has no other bit either (R114). -/
theorem fpsrFormula_and_mask (f : FieldStore) : fpsrFormula f &&& 0xF800009F#64 = fpsrFormula f := by
  rw [← fpsrView_eq_formula]
  exact BitVec.setWidth_and.symm.trans (congrArg _ (fpsrView_and_mask f))

/-- Xt takes 0 from an FPCR after reset (R56, R112). -/
theorem fpcrFormula_reset : fpcrFormula FieldStore.reset = 0#64 := by
  rw [← fpcrView_eq_formula, fpcrView_reset]
  rfl

/-! The reads (R110). -/

/-- An `MRS` reads its register's view into Xt where its access has a right, and faults where it has none. -/
theorem readsIntoX_of_readSys64 {i : Instr} {reg : SysReg64} {rt : BitVec 5} {s : State} {allowed : Prop} {v : DWord}
    (run : exec i s = readSys64 reg rt s) (hi : s.ctx.isa = .a64) (hacc : acc64 reg s ≠ .none ↔ allowed)
    (hview : view64 s reg = v) : ReadsIntoX i reg allowed rt v s := by
  subst hview
  refine ⟨fun ha => ⟨_, ?_, onlyXWritten_writeX s rt _⟩, fun ha => ?_⟩
  · rw [run, readSys64_next rt hi (hacc.mpr ha)]
  · rw [run, readSys64_eq_fault_iff]
    exact ⟨hi, not_not.mp (mt hacc.mp ha), rfl⟩

/-- Settles O12: the view of the store is the formula, inside the mask. -/
theorem mrsFpcrReadsTheControlFields : Obligations.MrsFpcrReadsTheControlFields := fun rt s hi =>
  ⟨sysWord_eq_or 1 .fpcr rt,
    readsIntoX_of_readSys64 rfl hi (acc64_ne_none_iff_enabled s (.inl rfl)) (fpcrView_eq_formula s.f),
    fpcrFormula_and_mask s.f, fun hreset => hreset ▸ fpcrFormula_reset⟩

/-- Settles O13: the view of the store is the formula, and the read writes nothing but Xt and the program counter. -/
theorem mrsFpsrReadsTheStatusFields : Obligations.MrsFpsrReadsTheStatusFields := fun rt s hi =>
  ⟨sysWord_eq_or 1 .fpsr rt,
    readsIntoX_of_readSys64 rfl hi (acc64_ne_none_iff_enabled s (.inr rfl)) (fpsrView_eq_formula s.f),
    fpsrFormula_and_mask s.f⟩

/-- Settles O14: the views are constants, and the three registers have the same rights. -/
theorem mrsMvfrReadsTheConstants : Obligations.MrsMvfrReadsTheConstants := fun rt s hi =>
  ⟨⟨sysWord_eq_or 1 .mvfr0El1 rt, readsIntoX_of_readSys64 rfl hi (acc64_ne_none_iff_above_el0 s (by decide))
      (congrArg (BitVec.setWidth 64) mvfr0Word_eq)⟩,
    ⟨sysWord_eq_or 1 .mvfr1El1 rt, readsIntoX_of_readSys64 rfl hi (acc64_ne_none_iff_above_el0 s (by decide))
      (congrArg (BitVec.setWidth 64) mvfr1Word_eq)⟩,
    ⟨sysWord_eq_or 1 .mvfr2El1 rt, readsIntoX_of_readSys64 rfl hi (acc64_ne_none_iff_above_el0 s (by decide))
      (congrArg (BitVec.setWidth 64) mvfr2Word_eq)⟩⟩

/-- Settles O15: EN is the view's only field, so its two values are the two that can be read. -/
theorem mrsFpexc32ReadsEn : Obligations.MrsFpexc32ReadsEn := fun rt s hi =>
  ⟨sysWord_eq_or 1 .fpexc32El2 rt,
    readsIntoX_of_readSys64 rfl hi (acc64_fpexc32El2_ne_none_iff s) (fpexcView_eq_formula s.en),
    fun hen => hen ▸ rfl, fun hen => hen ▸ rfl⟩

/-- Settles O16: the view is the open value, with the rights of the identification registers. -/
theorem mrsIdAa64pfr0ReadsTheOpenValue : Obligations.MrsIdAa64pfr0ReadsTheOpenValue := fun rt s hi =>
  ⟨sysWord_eq_or 1 .idAa64pfr0El1 rt, readsIntoX_of_readSys64 rfl hi (acc64_ne_none_iff_above_el0 s (by decide)) rfl⟩

/-! The writes (R111). -/

/-- What `MSR` of a writable register answers, by its right and by what `P_RES_WRITE` says of the value in Xt. -/
theorem writeSys64_outcomes {reg : SysReg64} {rt : BitVec 5} {s : State} {v : DWord} {allowed : Prop}
    (hi : s.ctx.isa = .a64) (hreg : reg ∈ [SysReg64.fpcr, .fpsr, .fpexc32El2]) (hv : XHolds s rt v)
    (hacc : acc64 reg s ≠ .none ↔ allowed) :
    (allowed ∧ WriteAccepted s v (0xFFFFFFFF#32 ++ res0Mask (.a64 reg)) ((res1Mask (.a64 reg)).setWidth 64) →
      writeSys64 reg rt s = .next (writeFields64 (v.setWidth 32) s reg).advance) ∧
    (allowed ∧ ¬ WriteAccepted s v (0xFFFFFFFF#32 ++ res0Mask (.a64 reg)) ((res1Mask (.a64 reg)).setWidth 64) →
      writeSys64 reg rt s = .refused (.reservedFieldWritten (.a64 reg))) ∧
    (¬ allowed → writeSys64 reg rt s = .fault (.undefinedInstruction (.a64 reg) .write s.ctx)) := by
  have haccepted := s.refusesWrite64_eq_false_iff reg v
  obtain rfl : s.readX rt = v := readX_of_xHolds hv
  have hrw (ha : allowed) : acc64 reg s = .rw := by
    cases hright : acc64 reg s with
    | none => exact absurd hright (hacc.mpr ha)
    | ro => exact absurd hright (acc64_ne_ro_of_writable s hreg)
    | rw => rfl
  refine ⟨fun ⟨ha, hw⟩ => writeSys64_next hi (hrw ha) (haccepted.mpr hw),
    fun ⟨ha, hw⟩ => writeSys64_refused hi (hrw ha) (eq_true_of_ne_false (mt haccepted.mp hw)), fun ha => ?_⟩
  rw [writeSys64_eq_fault_iff]
  exact ⟨hi, not_not.mp (mt hacc.mp ha), rfl⟩

/-- Settles O17: the completed write takes the control fields of Xt's lower half. -/
theorem msrFpcrWritesTheControlFields : Obligations.MsrFpcrWritesTheControlFields := by
  intro rt s v hi hv
  obtain ⟨hnext, hrefused, hfault⟩ :=
    writeSys64_outcomes hi (by decide) hv (acc64_ne_none_iff_enabled s (.inl rfl))
  refine ⟨sysWord_eq_or 0 .fpcr rt, fun ha => ⟨_, hnext ha, rfl, ?_⟩, hrefused, hfault⟩
  simp [writeFields64, controlOfWord, BitVec.extractLsb'_setWidth_of_le]

/-- Settles O18: the completed write takes the status fields of Xt's lower half. -/
theorem msrFpsrWritesTheStatusFields : Obligations.MsrFpsrWritesTheStatusFields := by
  intro rt s v hi hv
  obtain ⟨hnext, hrefused, hfault⟩ :=
    writeSys64_outcomes hi (by decide) hv (acc64_ne_none_iff_enabled s (.inr rfl))
  refine ⟨sysWord_eq_or 0 .fpsr rt, fun ha => ⟨_, hnext ha, rfl, ?_⟩, hrefused, hfault⟩
  simp [writeFields64, flagsOfWord, exceptionsOfWord]

/-- Settles O19: the completed write takes EN from Xt's lower half. -/
theorem msrFpexc32WritesEn : Obligations.MsrFpexc32WritesEn := by
  intro rt s v hi hv
  obtain ⟨hnext, hrefused, hfault⟩ := writeSys64_outcomes hi (by decide) hv (acc64_fpexc32El2_ne_none_iff s)
  have hen : enOfWord (v.setWidth 32) = v.getLsbD 30 := by simp [enOfWord]
  exact ⟨sysWord_eq_or 0 .fpexc32El2 rt, fun ha => ⟨_, hnext ha, hen ▸ rfl⟩, hrefused, hfault⟩

/-- Settles O20: the decoder has a row for each word, and the instruction of that row is refused before any check. -/
theorem msrToReadOnlyRegistersIsRefused : Obligations.MsrToReadOnlyRegistersIsRefused := fun rt _ =>
  ⟨⟨decodeWord_msr_or (reg := .mvfr0El1) (rt := rt) rfl, rfl⟩, ⟨decodeWord_msr_or (reg := .mvfr1El1) (rt := rt) rfl, rfl⟩,
    ⟨decodeWord_msr_or (reg := .mvfr2El1) (rt := rt) rfl, rfl⟩⟩

end Sys2Proof.Machine
end

section
/-! `VMRS` and `VMSR` of each AArch32 register, in A32 and T32 (R130 to R143): the words, where each access is performed and
where it faults, and what a read and a write then do, said once for both forms and for every register. -/

namespace Sys2Proof.Machine

/-! The words (R94, R95). -/

/-- The condition is in the highest four bits of a word (R94). -/
theorem vfpWord_eq_or_cond (cond : BitVec 4) (l : BitVec 1) (reg rt : BitVec 4) :
    vfpWord cond l reg rt = vfpWord 0#4 l reg rt ||| (cond.setWidth 32 <<< 28) := by
  refine BitVec.eq_of_getLsbD_eq fun i hi => ?_
  simp only [BitVec.getLsbD_or, BitVec.getLsbD_shiftLeft, BitVec.getLsbD_setWidth, vfpWord_getLsbD]
  interval_cases i <;> simp

/-- The number of Rt is above the lowest twelve bits of a word (R94). -/
theorem vfpWord_eq_or_rt (cond : BitVec 4) (l : BitVec 1) (reg rt : BitVec 4) :
    vfpWord cond l reg rt = vfpWord cond l reg 0#4 ||| (rt.setWidth 32 <<< 12) := by
  refine BitVec.eq_of_getLsbD_eq fun i hi => ?_
  simp only [BitVec.getLsbD_or, BitVec.getLsbD_shiftLeft, BitVec.getLsbD_setWidth, vfpWord_getLsbD]
  interval_cases i <;> simp

/-- The word of an A32 access is its register's word with the condition and Rt in their places (R94). -/
theorem vfpWord_eq_or (cond : BitVec 4) (l : BitVec 1) (reg rt : BitVec 4) :
    vfpWord cond l reg rt = vfpWord 0#4 l reg 0#4 ||| (cond.setWidth 32 <<< 28) ||| (rt.setWidth 32 <<< 12) := by
  rw [vfpWord_eq_or_rt, vfpWord_eq_or_cond]

/-- The word of a T32 access is its register's word with Rt in its place (R95). -/
theorem vfpWordT32_eq_or (l : BitVec 1) (reg rt : BitVec 4) :
    vfpWordT32 l reg rt = vfpWordT32 l reg 0#4 ||| (rt.setWidth 32 <<< 12) :=
  vfpWord_eq_or_rt 0b1110#4 l reg rt

/-- A word written out for a well-formed instruction decodes to it (R101). -/
theorem decodeWord_of_encode_eq {isa : Isa} {w : Word} {i : Instr} (hwf : i.wf = true) (hisa : i.isa = isa)
    (hw : encode i = w) : decodeWord isa w = .ok i := by
  subst hisa hw
  exact decodeWord_encode hwf

/-- The operands of an A32 access are admitted (R94, R97). -/
theorem admittedA32 {cond rt : BitVec 4} (hcond : cond ≠ 0b1111#4) (hrt : rt ≠ 15#4) :
    (condAdmitted cond && rtAdmittedA32 rt) = true :=
  Bool.and_eq_true_iff.mpr ⟨bne_iff_ne.mpr hcond, bne_iff_ne.mpr hrt⟩

/-- The operand of a T32 access is admitted (R97). -/
theorem admittedT32 {rt : BitVec 4} (h13 : rt ≠ 13#4) (h15 : rt ≠ 15#4) : rtAdmittedT32 rt = true :=
  Bool.and_eq_true_iff.mpr ⟨bne_iff_ne.mpr h13, bne_iff_ne.mpr h15⟩

/-! What the views are in Rt. -/

/-- FPSCR zero-extended is the union of the formulas of FPSR and FPCR (R43). -/
theorem fpscrView_eq_formula (f : FieldStore) : (fpscrView f).setWidth 64 = fpsrFormula f ||| fpcrFormula f := by
  rw [fpscrView, BitVec.setWidth_or, fpsrView_eq_formula, fpcrView_eq_formula]

/-- A 32-bit view read into Rt is the lower half of its zero extension. -/
theorem eq_setWidth_of_setWidth_eq {w : Word} {d : DWord} (h : w.setWidth 64 = d) : w = d.setWidth 32 := by
  rw [← h, BitVec.setWidth_setWidth_of_le w (by decide), BitVec.setWidth_eq]

/-- FPSCR has no bit outside its writable mask (R43): it is what its own write reads back. -/
theorem fpscrView_and_mask (f : FieldStore) : fpscrView f &&& 0xFFC0009F#32 = fpscrView f :=
  (fpscrView_writeFpscr (fpscrView f) f).symm.trans (congrArg fpscrView (writeFpscr_fpscrView f))

/-- The FPSCR that Rt takes has no other bit either (R133). -/
theorem fpscrFormula_and_mask (f : FieldStore) :
    (fpsrFormula f ||| fpcrFormula f) &&& 0xFFC0009F#64 = fpsrFormula f ||| fpcrFormula f := by
  rw [← fpscrView_eq_formula]
  exact BitVec.setWidth_and.symm.trans (congrArg _ (fpscrView_and_mask f))

/-! The accesses, where the form runs (R130, R131, R187). -/

/-- A form that runs performs its access where the access is allowed, and faults where it is not, if the register can be
accessed in that way at all. -/
theorem access32_outcomes {form : Form32} {ok : Bool} {reg : SysReg32} {access : Access} {s : State} {allowed : Prop}
    (p : Host.Outcome State Fault Refusal)
    (hchecks : s.ctx.isa = form.isa ∧ (form.condAdmitted && ok) = true ∧ form.passes s = true)
    (hallowed : Allowed32 reg s ↔ allowed) (hway : type32 reg = .rw ∨ access = .read) :
    (allowed → access32 form ok reg access s p = p) ∧
    (¬ allowed → access32 form ok reg access s p = .fault (.undefinedInstruction (.a32 reg) access s.ctx)) := by
  obtain ⟨hi, hok, hp⟩ := hchecks
  obtain ⟨hright, hnone⟩ := acc32_of_allowed_iff (hi ▸ form.isa_ne_a64) hallowed
  have htype : type32 reg ≠ .none := by cases reg <;> decide
  refine ⟨fun ha => ?_, fun ha => access32_fault p hi hok hp (hnone ha)⟩
  rw [← hright ha] at htype hway
  exact access32_performed p hi hok hp htype hway

/-- A `VMRS` that runs reads its register's view into Rt where the access is allowed, and faults where it is not. -/
theorem readsIntoR_of_readSys32 {i : Instr} {form : Form32} {reg : SysReg32} {rt : BitVec 4} {s : State} {allowed : Prop}
    {v : Word} (run : exec i s = readSys32 form reg rt s)
    (hchecks : s.ctx.isa = form.isa ∧ (form.condAdmitted && form.rtAdmitted rt) = true ∧ form.passes s = true)
    (hallowed : Allowed32 reg s ↔ allowed) (hview : view32 s reg = v) : ReadsIntoR i reg allowed rt v s := by
  subst hview
  obtain ⟨hnext, hfault⟩ := access32_outcomes (access := .read) (.next (s.writeR rt (view32 s reg)).advance)
    hchecks hallowed (.inr rfl)
  exact ⟨fun ha => ⟨_, run.trans (hnext ha), onlyRWritten_writeR s rt _⟩, fun ha => run.trans (hfault ha)⟩

/-- What a `VMSR` of a writable register answers where it runs, by its right and by what `P_RES_WRITE` says of the value in
Rt. -/
theorem writeSys32_outcomes {form : Form32} {reg : SysReg32} {rt : BitVec 4} {s : State} {v : Word} {allowed : Prop}
    (hchecks : s.ctx.isa = form.isa ∧ (form.condAdmitted && form.rtAdmitted rt) = true ∧ form.passes s = true)
    (hallowed : Allowed32 reg s ↔ allowed) (htype : type32 reg = .rw) (hv : s.r[rt.toNat]? = some v) :
    (allowed ∧ WriteAccepted s v (res0Mask (.a32 reg)) (res1Mask (.a32 reg)) →
      writeSys32 form reg rt s = .next (writeFields32 v s reg).advance) ∧
    (allowed ∧ ¬ WriteAccepted s v (res0Mask (.a32 reg)) (res1Mask (.a32 reg)) →
      writeSys32 form reg rt s = .refused (.reservedFieldWritten (.a32 reg))) ∧
    (¬ allowed → writeSys32 form reg rt s = .fault (.undefinedInstruction (.a32 reg) .write s.ctx)) := by
  have haccepted := s.refusesWrite32_eq_false_iff (.a32 reg) v
  obtain rfl : s.readR rt = v := State.readR_of_getElem? hv
  obtain ⟨hperform, hfault⟩ := access32_outcomes (access := .write) _ hchecks hallowed (.inl htype)
  refine ⟨fun ⟨ha, hw⟩ => (hperform ha).trans (if_neg ?_), fun ⟨ha, hw⟩ => (hperform ha).trans (if_pos ?_), hfault⟩
  · exact Bool.eq_false_iff.mp (haccepted.mpr hw)
  · exact eq_true_of_ne_false (mt haccepted.mp hw)

/-! The reads. -/

/-- Settles O21: the view is a constant, and FPSID's right does not depend on EN. -/
theorem vmrsFpsidReadsTheConstant : Obligations.VmrsFpsidReadsTheConstant := fun cond rt s =>
  have hallowed := allowed32_iff_of_not_dependsOnEn (reg := .fpsid) s (by decide) rfl
  ⟨fun hrun => ⟨vfpWord_eq_or cond 1 0b0000#4 rt,
      readsIntoR_of_readSys32 rfl (checks_of_runsA32 hrun) hallowed fpsidWord_eq⟩,
    fun hrun => ⟨vfpWordT32_eq_or 1 0b0000#4 rt,
      readsIntoR_of_readSys32 rfl (checks_of_runsT32 hrun) hallowed fpsidWord_eq⟩⟩

/-- Settles O22: the view of the store is the union of the two formulas, inside the mask. -/
theorem vmrsFpscrReadsEveryField : Obligations.VmrsFpscrReadsEveryField := fun cond rt s =>
  have hview := eq_setWidth_of_setWidth_eq (fpscrView_eq_formula s.f)
  ⟨fun hrun => ⟨vfpWord_eq_or cond 1 0b0001#4 rt,
      readsIntoR_of_readSys32 rfl (checks_of_runsA32 hrun) (allowed32_fpscr_iff s) hview⟩,
    fun hrun => ⟨vfpWordT32_eq_or 1 0b0001#4 rt,
      readsIntoR_of_readSys32 rfl (checks_of_runsT32 hrun) (allowed32_fpscr_iff s) hview⟩,
    fpscrFormula_and_mask s.f⟩

/-- Settles O23: the views are constants, and the three registers have the same rights, which depend on EN. -/
theorem vmrsMvfrReadsTheConstants : Obligations.VmrsMvfrReadsTheConstants := fun cond rt s =>
  have hallowed {reg : SysReg32} (h : reg ≠ .fpscr) (hen : dependsOnEn reg = true) :=
    allowed32_iff_of_dependsOnEn s h hen
  ⟨fun hrun => ⟨vfpWord_eq_or cond 1 0b0111#4 rt,
      readsIntoR_of_readSys32 rfl (checks_of_runsA32 hrun) (hallowed (by decide) rfl) mvfr0Word_eq⟩,
    fun hrun => ⟨vfpWordT32_eq_or 1 0b0111#4 rt,
      readsIntoR_of_readSys32 rfl (checks_of_runsT32 hrun) (hallowed (by decide) rfl) mvfr0Word_eq⟩,
    fun hrun => ⟨vfpWord_eq_or cond 1 0b0110#4 rt,
      readsIntoR_of_readSys32 rfl (checks_of_runsA32 hrun) (hallowed (by decide) rfl) mvfr1Word_eq⟩,
    fun hrun => ⟨vfpWordT32_eq_or 1 0b0110#4 rt,
      readsIntoR_of_readSys32 rfl (checks_of_runsT32 hrun) (hallowed (by decide) rfl) mvfr1Word_eq⟩,
    fun hrun => ⟨vfpWord_eq_or cond 1 0b0101#4 rt,
      readsIntoR_of_readSys32 rfl (checks_of_runsA32 hrun) (hallowed (by decide) rfl) mvfr2Word_eq⟩,
    fun hrun => ⟨vfpWordT32_eq_or 1 0b0101#4 rt,
      readsIntoR_of_readSys32 rfl (checks_of_runsT32 hrun) (hallowed (by decide) rfl) mvfr2Word_eq⟩⟩

/-- Settles O24: EN is the view's only field, and FPEXC's right does not depend on it. -/
theorem vmrsFpexcReadsEn : Obligations.VmrsFpexcReadsEn := fun cond rt s =>
  have hallowed := allowed32_iff_of_not_dependsOnEn (reg := .fpexc) s (by decide) rfl
  have hview := eq_setWidth_of_setWidth_eq (fpexcView_eq_formula s.en)
  ⟨fun hrun => ⟨vfpWord_eq_or cond 1 0b1000#4 rt,
      readsIntoR_of_readSys32 rfl (checks_of_runsA32 hrun) hallowed hview⟩,
    fun hrun => ⟨vfpWordT32_eq_or 1 0b1000#4 rt,
      readsIntoR_of_readSys32 rfl (checks_of_runsT32 hrun) hallowed hview⟩,
    fun hen => hen ▸ rfl, fun hen => hen ▸ rfl⟩

/-! The writes. -/

/-- Settles O25: the completed write takes all fifteen fields of Rt. -/
theorem vmsrFpscrWritesEveryField : Obligations.VmsrFpscrWritesEveryField := by
  intro cond rt s v hv written
  have hwritten : written (writeFields32 v s .fpscr).advance :=
    ⟨rfl, rfl, rfl, rfl, rfl, rfl, RoundingMode.bits_ofBits _, rfl⟩
  refine ⟨fun hrun => ?_, fun hrun => ?_⟩
  · obtain ⟨hnext, hrefused, hfault⟩ :=
      writeSys32_outcomes (checks_of_runsA32 hrun) (allowed32_fpscr_iff s) rfl hv
    exact ⟨vfpWord_eq_or cond 0 0b0001#4 rt, fun h => ⟨_, hnext (and_assoc.mpr h), hwritten⟩,
      fun h => hrefused (and_assoc.mpr h), hfault⟩
  · obtain ⟨hnext, hrefused, hfault⟩ :=
      writeSys32_outcomes (checks_of_runsT32 hrun) (allowed32_fpscr_iff s) rfl hv
    exact ⟨vfpWordT32_eq_or 0 0b0001#4 rt, fun h => ⟨_, hnext (and_assoc.mpr h), hwritten⟩,
      fun h => hrefused (and_assoc.mpr h), hfault⟩

/-- Settles O26: the completed write takes EN from Rt, and its right does not depend on the EN it replaces. -/
theorem vmsrFpexcWritesEn : Obligations.VmsrFpexcWritesEn := fun cond rt s _ hv =>
  have hallowed := allowed32_iff_of_not_dependsOnEn (reg := .fpexc) s (by decide) rfl
  ⟨fun hrun => ⟨vfpWord_eq_or cond 0 0b1000#4 rt, writeSys32_outcomes (checks_of_runsA32 hrun) hallowed rfl hv⟩,
    fun hrun => ⟨vfpWordT32_eq_or 0 0b1000#4 rt, writeSys32_outcomes (checks_of_runsT32 hrun) hallowed rfl hv⟩⟩

/-! The transfer of the flags. -/

/-- Settles O27: the transfer has FPSCR's right to read, and performs the copy alone. -/
theorem vmrsApsrCopiesTheFlags : Obligations.VmrsApsrCopiesTheFlags := fun cond s =>
  ⟨fun hrun => ⟨vfpWord_eq_or_cond cond 1 0b0001#4 15#4,
      access32_outcomes _ (checks_of_runsA32 hrun) (allowed32_fpscr_iff s) (.inr rfl)⟩,
    fun hisa => ⟨rfl, access32_outcomes (form := .t32) _ ⟨hisa, rfl, rfl⟩ (allowed32_fpscr_iff s) (.inr rfl)⟩⟩

/-! A failed condition. -/

/-- A well-formed instruction of the context's set that the spec gives a meaning only advances the program counter where its
condition fails (R130, R131). -/
theorem exec_of_condition_failed {i : Instr} {s : State} (hwf : i.wf = true) (hisa : i.isa = s.ctx.isa)
    (hmeaning : refusedBySpec i = false) (hcond : conditionPassed s (condOf i) = false) : exec i s = .next s.advance := by
  cases exec_shape i s with
  | readSys64 _ _ _ _ _ _ own => obtain ⟨-, -, hpass⟩ := own; simp [hpass] at hcond
  | writeSys64 _ _ _ _ _ _ own => obtain ⟨-, -, hpass⟩ := own; simp [hpass] at hcond
  | readSys32 form reg rt run isa wf _ own =>
    obtain ⟨-, hpasses⟩ := own
    exact run.trans (access32_condition_failed reg _ _ (hisa.symm.trans isa) (wf ▸ hwf) (hpasses ▸ hcond))
  | writeSys32 form reg rt run isa wf _ _ own =>
    obtain ⟨-, hpasses⟩ := own
    exact run.trans (access32_condition_failed reg _ _ (hisa.symm.trans isa) (wf ▸ hwf) (hpasses ▸ hcond))
  | transferFlags form run isa wf _ _ own =>
    obtain ⟨-, hpasses⟩ := own
    exact run.trans (access32_condition_failed _ _ _ (hisa.symm.trans isa) (wf ▸ hwf) (hpasses ▸ hcond))
  | refused _ _ spec => simp [spec] at hmeaning

/-- Settles O30: each of the nine instructions is well formed and carries the failed condition. -/
theorem failedConditionMakesAnA32AccessANoOp : Obligations.FailedConditionMakesAnA32AccessANoOp := by
  intro cond rt s hisa hcond hrt
  refine ⟨rfl, fun hfailed => ?_⟩
  have hwf := admittedA32 hcond hrt
  have noOp {i : Instr} (hi : i.wf = true) (ha32 : i.isa = .a32) (hmeaning : refusedBySpec i = false)
      (hcondOf : condOf i = cond) : ∃ t, exec i s = .next t ∧ OnlyPcAdvanced s t :=
    ⟨_, exec_of_condition_failed hi (ha32.trans hisa.symm) hmeaning (hcondOf ▸ hfailed), rfl⟩
  simp only [List.forall_mem_cons]
  exact ⟨noOp hwf rfl rfl rfl, noOp hwf rfl rfl rfl, noOp (bne_iff_ne.mpr hcond) rfl rfl rfl, noOp hwf rfl rfl rfl,
    noOp hwf rfl rfl rfl, noOp hwf rfl rfl rfl, noOp hwf rfl rfl rfl, noOp hwf rfl rfl rfl, noOp hwf rfl rfl rfl,
    List.forall_mem_nil _⟩

/-! The instructions the spec refuses. -/

/-- Settles O28: the instructions are refused before any check, and each word is the one the encoder gives. -/
theorem vmsrToReadOnlyRegistersIsRefused : Obligations.VmsrToReadOnlyRegistersIsRefused := by
  refine fun cond rt s => ⟨⟨rfl, rfl, rfl, rfl⟩, ⟨rfl, rfl, rfl, rfl⟩, fun hcond hrt => ?_, fun h13 h15 => ?_⟩
  · have hwf := admittedA32 hcond hrt
    exact ⟨decodeWord_of_encode_eq hwf rfl (vfpWord_eq_or cond 0 0b0000#4 rt),
      decodeWord_of_encode_eq hwf rfl (vfpWord_eq_or cond 0 0b0111#4 rt),
      decodeWord_of_encode_eq hwf rfl (vfpWord_eq_or cond 0 0b0110#4 rt),
      decodeWord_of_encode_eq hwf rfl (vfpWord_eq_or cond 0 0b0101#4 rt)⟩
  · have hwf := admittedT32 h13 h15
    exact ⟨decodeWord_of_encode_eq hwf rfl (vfpWordT32_eq_or 0 0b0000#4 rt),
      decodeWord_of_encode_eq hwf rfl (vfpWordT32_eq_or 0 0b0111#4 rt),
      decodeWord_of_encode_eq hwf rfl (vfpWordT32_eq_or 0 0b0110#4 rt),
      decodeWord_of_encode_eq hwf rfl (vfpWordT32_eq_or 0 0b0101#4 rt)⟩

/-- Settles O29: the eight instructions are refused before any check, and each word is the one the encoder gives. -/
theorem fpinstAccessesAreRefused : Obligations.FpinstAccessesAreRefused := by
  refine fun cond rt s => ⟨?_, fun hcond hrt => ?_, fun h13 h15 => ?_⟩
  · simp only [List.forall_mem_cons]
    exact ⟨rfl, rfl, rfl, rfl, rfl, rfl, rfl, rfl, List.forall_mem_nil _⟩
  · have hwf := admittedA32 hcond hrt
    exact ⟨decodeWord_of_encode_eq hwf rfl (vfpWord_eq_or cond 1 0b1001#4 rt),
      decodeWord_of_encode_eq hwf rfl (vfpWord_eq_or cond 0 0b1001#4 rt),
      decodeWord_of_encode_eq hwf rfl (vfpWord_eq_or cond 1 0b1010#4 rt),
      decodeWord_of_encode_eq hwf rfl (vfpWord_eq_or cond 0 0b1010#4 rt)⟩
  · have hwf := admittedT32 h13 h15
    exact ⟨decodeWord_of_encode_eq hwf rfl (vfpWordT32_eq_or 1 0b1001#4 rt),
      decodeWord_of_encode_eq hwf rfl (vfpWordT32_eq_or 0 0b1001#4 rt),
      decodeWord_of_encode_eq hwf rfl (vfpWordT32_eq_or 1 0b1010#4 rt),
      decodeWord_of_encode_eq hwf rfl (vfpWordT32_eq_or 0 0b1010#4 rt)⟩

end Sys2Proof.Machine
end

section
/-! Which register writes change the fields of the store (R31, R59, R157). -/

namespace Sys2Proof.Machine

/-- Of the AArch64 registers FPCR alone holds the control fields (R26, R113). -/
theorem writeFields64_control (w : Word) (s : State) {reg : SysReg64} (h : reg ≠ .fpcr) :
    (writeFields64 w s reg).f.control = s.f.control := by
  cases reg
  case fpcr => exact absurd rfl h
  all_goals rfl

/-- Of the AArch64 registers FPSR alone holds the status fields (R29, R115). -/
theorem writeFields64_status (w : Word) (s : State) {reg : SysReg64} (h : reg ≠ .fpsr) :
    (writeFields64 w s reg).f.flags = s.f.flags ∧ (writeFields64 w s reg).f.qc = s.f.qc ∧
      (writeFields64 w s reg).f.exc = s.f.exc := by
  cases reg
  case fpsr => exact absurd rfl h
  all_goals exact ⟨rfl, rfl, rfl⟩

/-- Of the AArch32 registers FPSCR alone holds fields of the store (R43, R134). -/
theorem writeFields32_f (w : Word) (s : State) {reg : SysReg32} (h : reg ≠ .fpscr) : (writeFields32 w s reg).f = s.f := by
  cases reg
  case fpscr => exact absurd rfl h
  all_goals rfl

/-- Settles O35, by what a completed instruction can have done. -/
theorem onlyRegisterWritesChangeTheFieldStore : Obligations.OnlyRegisterWritesChangeTheFieldStore := by
  intro i s t h
  rcases exec_next_cases h with ⟨rt, v, rfl, -⟩ | ⟨rt, v, rfl, -⟩ | ⟨w, reg, rfl, -, -, -, hcontrol, hstatus, -⟩ |
    ⟨w, reg, rfl, -, -, -, hcontrol, hstatus, -⟩ | ⟨rfl, hi⟩ | ⟨rfl, -⟩
  · simp
  · simp
  · refine ⟨fun hno => ?_, fun hno => ?_, by simp⟩
    · exact writeFields64_control w s fun hreg => by simp [hcontrol.mpr hreg] at hno
    · exact writeFields64_status w s fun hreg => by simp [hstatus.mpr hreg] at hno
  · refine ⟨fun hno => ?_, fun hno => ?_, by simp⟩
    · have hreg : reg ≠ .fpscr := fun hreg => by simp [hcontrol.mpr hreg] at hno
      simp [writeFields32_f w s hreg]
    · have hreg : reg ≠ .fpscr := fun hreg => by simp [hstatus.mpr hreg] at hno
      simp [writeFields32_f w s hreg]
  · exact ⟨fun _ => rfl, fun _ => ⟨rfl, rfl, rfl⟩, fun _ => hi⟩
  · simp

end Sys2Proof.Machine
end

section
/-! Where an operation of the class is enabled and completes (R152, R165, R166, R167). -/

namespace Sys2Proof.Machine

/-- A32 and T32 are the instruction sets of AArch32 (R90). -/
theorem Isa.execState_eq_aarch32 {isa : Isa} (h : isa ≠ .a64) : isa.execState = .aarch32 := by
  cases isa
  · exact absurd rfl h
  all_goals rfl

/-- A field of a word that has no bit outside a mask reads 0 where the mask has none. -/
theorem extractLsb'_eq_zero_of_and_eq {n start len : Nat} {v m : BitVec n} (hv : v &&& m = v)
    (hm : m.extractLsb' start len = 0#len) : v.extractLsb' start len = 0#len := by
  rw [← hv, BitVec.extractLsb'_and, hm, BitVec.and_zero]

/-- Len and Stride stand outside FPSCR's fields (R43, R166). -/
theorem shortVectorSelected_eq_false (s : State) : shortVectorSelected s = false := by
  have hlen : (fpscrView s.f).extractLsb' 16 3 = 0#3 := extractLsb'_eq_zero_of_and_eq (fpscrView_and_mask s.f) rfl
  have hstride : (fpscrView s.f).extractLsb' 20 2 = 0#2 := extractLsb'_eq_zero_of_and_eq (fpscrView_and_mask s.f) rfl
  simp [shortVectorSelected, hlen, hstride]

/-- Settles O51: the state after the write is a state as well. -/
theorem shortVectorsCannotBeSelected : Obligations.ShortVectorsCannotBeSelected := fun s v =>
  ⟨shortVectorSelected_eq_false s, shortVectorSelected_eq_false (writeFields32 v s .fpscr)⟩

/-- In AArch64 the class has the enable of the system registers (R196). -/
theorem dataProcessingEnabled_a64 {s : State} (h : s.ctx.isa = .a64) : dataProcessingEnabled s = a64FpAccessEnabled s := by
  simp [dataProcessingEnabled, h, Isa.execState]

/-- In AArch32 the class has the enables of FPSCR (R167, R196). -/
theorem dataProcessingEnabled_aarch32 {s : State} (h : s.ctx.isa ≠ .a64) :
    dataProcessingEnabled s = a32FpAccessEnabled .fpscr s := by
  simp [dataProcessingEnabled, Isa.execState_eq_aarch32 h]

/-- An operation that is not enabled faults (R167, R183). -/
theorem fpOperation_of_disabled (op : FpOperation) {s : State} (h : dataProcessingEnabled s = false) :
    fpOperation op s = .fault (.undefinedDataProcessing s.ctx) := by
  simp [fpOperation, h]

/-- An enabled operation completes: no short vector can stop it (R152, R166). -/
theorem fpOperation_of_enabled (op : FpOperation) {s : State} (h : dataProcessingEnabled s = true) :
    fpOperation op s = .next (fpResult op s, s.recordStatus op) :=
  fpOperation_next h (shortVectorSelected_eq_false s)

/-- Everything an operation can answer. -/
theorem fpOperation_cases (op : FpOperation) (s : State) :
    (dataProcessingEnabled s = false ∧ fpOperation op s = .fault (.undefinedDataProcessing s.ctx)) ∨
    (dataProcessingEnabled s = true ∧ fpOperation op s = .next (fpResult op s, s.recordStatus op)) := by
  cases h : dataProcessingEnabled s
  · exact .inl ⟨rfl, fpOperation_of_disabled op h⟩
  · exact .inr ⟨rfl, fpOperation_of_enabled op h⟩

/-- EN = 0 under an AArch32 EL1 closes the AArch32 enables of FPSCR (R52, D23). -/
theorem a32FpAccessEnabled_fpscr_of_en_closed {s : State} (hi : s.ctx.isa ≠ .a64) (hen : s.en = false)
    (hel1 : s.platform.elState.el1 = .aarch32) : a32FpAccessEnabled .fpscr s = false := by
  rw [Bool.eq_false_iff, Ne, a32FpAccessEnabled_iff _ hi]
  simp [dependsOnEn, EnabledByEn, hen, hel1]

/-- Under an AArch64 EL1 no AArch32 enable depends on EN (R52). -/
theorem a32FpAccessEnabled_withEn_of_el1_aarch64 (reg : SysReg32) {s : State} (b : Bool)
    (h : s.platform.elState.el1 = .aarch64) : a32FpAccessEnabled reg { s with en := b } = a32FpAccessEnabled reg s := by
  simp [a32FpAccessEnabled, enOpen, h]

/-- Settles O52: the class has FPSCR's enables in AArch32, and in AArch64 one that does not see EN. -/
theorem aDisabledClassFaults : Obligations.ADisabledClassFaults := by
  refine ⟨fun op s hi hen hel1 => fpOperation_of_disabled op ?_, fun s b hi => ?_, fun s b hi hel1 => ?_⟩
  · rw [dataProcessingEnabled_aarch32 hi, a32FpAccessEnabled_fpscr_of_en_closed hi hen hel1]
  · rw [dataProcessingEnabled_a64 hi, dataProcessingEnabled_a64 (s := { s with en := b }) hi]
    rfl
  · rw [dataProcessingEnabled_aarch32 hi, dataProcessingEnabled_aarch32 (s := { s with en := b }) hi,
      a32FpAccessEnabled_withEn_of_el1_aarch64 _ b hel1]

end Sys2Proof.Machine
end

section
/-! The control fields an operation is run with (R153, R156, R158 to R161). -/

namespace Sys2Proof.Machine

/-- AArch32 Advanced SIMD runs with Default NaN, Flush-to-zero and Round to Nearest (R158, R159, R160). -/
theorem fpControl_of_advSimd_aarch32 {op : FpOperation} {s : State} (hi : s.ctx.isa ≠ .a64) (hc : op.cls = .advSimd) :
    fpControl op s = ⟨s.f.control.ahp && op.kind.convertsHalf, true, true, .rn⟩ := by
  simp [fpControl, effectiveControl, Isa.execState_eq_aarch32 hi, hc]

/-- Every other operation has the fields in force as they are (R161). -/
theorem effectiveControl_of_not_advSimd_aarch32 {isa : Isa} {cls : FpClass} (control : FpControl)
    (h : ¬ (isa ≠ .a64 ∧ cls = .advSimd)) : effectiveControl isa.execState cls control = control := by
  cases cls
  case scalar => cases isa <;> rfl
  case advSimd =>
    have hi : isa = .a64 := not_not.mp fun hi => h ⟨hi, rfl⟩
    rw [hi]; rfl

/-- Every other operation runs with the fields as they are, AHP and RMode where they govern it (R153, R156, R161). -/
theorem fpControl_of_not_advSimd_aarch32 {op : FpOperation} {s : State} (h : ¬ (s.ctx.isa ≠ .a64 ∧ op.cls = .advSimd)) :
    fpControl op s = ⟨s.f.control.ahp && op.kind.convertsHalf, s.f.control.dn, s.f.control.fz,
      if op.ownRounding then .rn else s.f.control.rmode⟩ := by
  rw [fpControl, effectiveControl_of_not_advSimd_aarch32 _ h]

/-- The numerics see nothing of the state but the controls and the execution state (R150). -/
theorem fpAnswer_eq_of_fpControl_eq {op : FpOperation} {s t : State} (hctx : t.ctx = s.ctx)
    (h : fpControl op t = fpControl op s) : fpAnswer op t = fpAnswer op s := by
  rw [fpAnswer, fpAnswer, h, hctx]

/-- Two states of one context run an operation alike where each control field that reaches it is the same. -/
theorem fpControl_congr {op : FpOperation} {s t : State} (hctx : t.ctx = s.ctx)
    (hahp : op.kind.convertsHalf = true → t.f.control.ahp = s.f.control.ahp)
    (hrest : ¬ (s.ctx.isa ≠ .a64 ∧ op.cls = .advSimd) → t.f.control.dn = s.f.control.dn ∧
      t.f.control.fz = s.f.control.fz ∧ (op.ownRounding = false → t.f.control.rmode = s.f.control.rmode)) :
    fpControl op t = fpControl op s := by
  have hahp' : (t.f.control.ahp && op.kind.convertsHalf) = (s.f.control.ahp && op.kind.convertsHalf) := by
    cases hk : op.kind.convertsHalf
    · simp
    · rw [hahp hk]
  by_cases h : s.ctx.isa ≠ .a64 ∧ op.cls = .advSimd
  · obtain ⟨hi, hc⟩ := h
    rw [fpControl_of_advSimd_aarch32 (hctx ▸ hi) hc, fpControl_of_advSimd_aarch32 hi hc, hahp']
  · obtain ⟨hdn, hfz, hrmode⟩ := hrest h
    rw [fpControl_of_not_advSimd_aarch32 (hctx ▸ h), fpControl_of_not_advSimd_aarch32 h, hahp', hdn, hfz]
    cases ho : op.ownRounding
    · rw [hrmode ho]
    · rfl

/-- Settles O48: an operation that completes leaves `recordStatus`, which keeps the control fields. -/
theorem aArch32AdvancedSimdIgnoresTheControls : Obligations.AArch32AdvancedSimdIgnoresTheControls := by
  refine ⟨fun c => ⟨rfl, rfl, rfl, rfl⟩, fun c => ⟨rfl, rfl, rfl⟩, fun op s t result h => ⟨rfl, fun hi hc => ?_, ?_⟩⟩
  · rw [fpControl_of_advSimd_aarch32 hi hc]
    exact ⟨rfl, rfl, rfl⟩
  · rcases fpOperation_cases op s with ⟨-, h'⟩ | ⟨-, h'⟩ <;> rw [h'] at h <;> cases h
    exact s.recordStatus_control op

/-- Settles O53: the changed field is none of those that reach the operation. -/
theorem controlsReachOnlyTheOperationsTheyGovern : Obligations.ControlsReachOnlyTheOperationsTheyGovern := by
  refine fun op s => ⟨fun hconv b => ?_, fun hown m => ?_, fun hi hc dn fz m => ?_⟩ <;>
    refine fpAnswer_eq_of_fpControl_eq rfl (fpControl_congr rfl ?_ ?_)
  · simp [hconv]
  · exact fun _ => ⟨rfl, rfl, fun _ => rfl⟩
  · exact fun _ => rfl
  · simp [hown]
  · exact fun _ => rfl
  · exact fun h => absurd ⟨hi, hc⟩ h

end Sys2Proof.Machine
end

section
/-! The status an operation leaves: the cumulative bits, QC and the comparison flags (R162, R163, R164). -/

namespace Sys2Proof.Machine

/-- In AArch32 a comparison sets the flags of the field store (R162). -/
theorem State.writeComparison_aarch32 {s : State} (c : Comparison) (h : s.ctx.isa ≠ .a64) :
    s.writeComparison c = { s with f := { s.f with flags := c.flags } } := by
  simp [State.writeComparison, Isa.execState_eq_aarch32 h]

/-- In AArch64 a comparison sets PSTATE (R162). -/
theorem State.writeComparison_a64 {s : State} (c : Comparison) (h : s.ctx.isa = .a64) :
    s.writeComparison c = { s with pstate := c.flags } := by
  simp [State.writeComparison, h, Isa.execState]

/-- Each raised exception sets its cumulative bit, and nothing clears one (R164). -/
@[simp] theorem State.recordStatus_exc (s : State) (op : FpOperation) :
    (s.recordStatus op).f.exc = s.f.exc.accumulate (fpRaised op s) := by
  simp only [State.recordStatus]
  split <;> simp [FieldStore.raiseExceptions, FieldStore.recordSaturation]

/-- QC is sticky (R163). -/
@[simp] theorem State.recordStatus_qc (s : State) (op : FpOperation) :
    (s.recordStatus op).f.qc = (s.f.qc || fpSaturated op s) := by
  simp only [State.recordStatus]
  split <;> simp [FieldStore.raiseExceptions, FieldStore.recordSaturation]

/-- Without a comparison no flag changes. -/
theorem State.recordStatus_flags_of_none {s : State} {op : FpOperation} (h : fpComparison op s = none) :
    (s.recordStatus op).f.flags = s.f.flags ∧ (s.recordStatus op).pstate = s.pstate := by
  rw [State.recordStatus, h]
  exact ⟨rfl, rfl⟩

/-- In AArch32 the comparison result is in the flags of the field store (R162). -/
theorem State.recordStatus_flags_aarch32 {s : State} {op : FpOperation} {c : Comparison} (hi : s.ctx.isa ≠ .a64)
    (h : fpComparison op s = some c) :
    (s.recordStatus op).f.flags = c.flags ∧ (s.recordStatus op).pstate = s.pstate := by
  simp [State.recordStatus, h, State.writeComparison_aarch32, hi]

/-- In AArch64 the comparison result is in PSTATE (R162). -/
theorem State.recordStatus_flags_a64 {s : State} {op : FpOperation} {c : Comparison} (hi : s.ctx.isa = .a64)
    (h : fpComparison op s = some c) :
    (s.recordStatus op).pstate = c.flags ∧ (s.recordStatus op).f.flags = s.f.flags := by
  simp [State.recordStatus, h, State.writeComparison_a64, hi, FieldStore.raiseExceptions, FieldStore.recordSaturation]

/-- An integer operation raises no floating-point exception (R164). -/
theorem accumulate_fpRaised_of_integer {op : FpOperation} (s : State) (old : FpExceptions) (h : op.kind = .integer) :
    old.accumulate (fpRaised op s) = old := by
  simp [fpRaised, h, FpExceptions.accumulate]

/-- Only an integer operation saturates (R163). -/
theorem fpSaturated_of_not_integer {op : FpOperation} (s : State) (h : op.kind ≠ .integer) : fpSaturated op s = false := by
  simp [fpSaturated, h]

/-- Settles O50: the operation completes, and `recordStatus` changes the status alone. -/
theorem operationsAccumulateAndNeverTrap : Obligations.OperationsAccumulateAndNeverTrap := by
  intro op s henabled
  refine ⟨_, _, fpOperation_of_enabled op henabled, s.recordStatus_eq op, s.recordStatus_control op,
    s.recordStatus_exc op, s.recordStatus_qc op, fun hkind => ?_, fun hkind => ?_, State.recordStatus_flags_of_none⟩
  · rw [State.recordStatus_qc, fpSaturated_of_not_integer s hkind, Bool.or_false]
  · rw [State.recordStatus_exc, accumulate_fpRaised_of_integer s _ hkind]

/-- An enabled operation that compares completes, with its result in the flags of the execution state (R162). -/
theorem fpOperation_sets_comparison_flags {op : FpOperation} {s : State} {c : Comparison}
    (henabled : dataProcessingEnabled s = true) (h : fpComparison op s = some c) :
    ∃ (result : List DWord) (t : State), fpOperation op s = .next (result, t) ∧
      (s.ctx.isa ≠ .a64 → t.f.flags = c.flags ∧ t.pstate = s.pstate) ∧
      (s.ctx.isa = .a64 → t.pstate = c.flags ∧ t.f.flags = s.f.flags) :=
  ⟨_, _, fpOperation_of_enabled op henabled, fun hi => State.recordStatus_flags_aarch32 hi h,
    fun hi => State.recordStatus_flags_a64 hi h⟩

/-- A comparison of floating-point numbers is unordered exactly where an operand is a NaN of their format (R162). -/
theorem fpComparison_unordered_iff_exists_nan {op : FpOperation} (s : State) {src : FpArithFormat}
    {dst : Option FpArithFormat} (hcompares : op.compares = true) (hkind : op.kind = .floatingPoint (some src) dst) :
    fpComparison op s = some .unordered ↔
      ∃ operands ∈ op.elements, ∃ x ∈ operands, (FpFormat.arith src).isNaN x = true := by
  have hsource : op.kind.source (fpControl op s).ahp = some (.arith src) := by rw [hkind]; rfl
  rw [fpComparison_eq_unordered_iff, FpOperation.hasNaN_iff hsource]
  exact and_iff_right hcompares

/-- An operation has a comparison result exactly where it compares. -/
theorem fpComparison_ne_none_iff (op : FpOperation) (s : State) : fpComparison op s ≠ none ↔ op.compares = true := by
  simp [fpComparison]

/-- Settles O49: the table is the definition of the flags, and the result goes where the execution state has it. -/
theorem comparisonsSetTheFlagsOfTheTable : Obligations.ComparisonsSetTheFlagsOfTheTable :=
  ⟨rfl, rfl, rfl, rfl, fun _ => State.writeComparison_aarch32, fun _ => State.writeComparison_a64,
    fpComparison_ne_none_iff, fun _ s _ _ => fpComparison_unordered_iff_exists_nan s,
    fun _ _ _ => fpOperation_sets_comparison_flags⟩

/-- Settles O56: the NaN operand makes the comparison unordered. -/
theorem aComparisonWithANaNIsUnordered : Obligations.AComparisonWithANaNIsUnordered := by
  intro op s src dst operands x henabled hcompares hkind hoperands hx hnan
  have hunordered : fpComparison op s = some .unordered :=
    (fpComparison_unordered_iff_exists_nan s hcompares hkind).mpr ⟨operands, hoperands, x, hx, hnan⟩
  exact fpOperation_sets_comparison_flags henabled hunordered

end Sys2Proof.Machine
end

section
/-! The formats' special encodings (R168) and the result of an operation with NaN operands (R154). -/

namespace Sys2Proof.Machine

/-- The largest exponent is a field of ones. -/
theorem FpFormat.exponent_eq_max_iff (format : FpFormat) (x : DWord) :
    format.exponent x = 2 ^ format.exponentBits - 1 ↔
      x.extractLsb' format.fractionBits format.exponentBits = BitVec.allOnes format.exponentBits := by
  rw [FpFormat.exponent, ← BitVec.toNat_inj, BitVec.toNat_allOnes]

/-- A fraction of 0 is a field of zeros. -/
theorem FpFormat.fraction_eq_zero_iff (format : FpFormat) (x : DWord) :
    format.fraction x = 0 ↔ x.extractLsb' 0 format.fractionBits = 0#format.fractionBits := by
  rw [FpFormat.fraction, ← BitVec.toNat_inj, BitVec.toNat_zero]

/-- The NaNs of a format that has them, in the fields' bits. -/
theorem FpFormat.isNaN_iff_bits {format : FpFormat} (h : format.hasSpecials = true) (x : DWord) :
    format.isNaN x = true ↔
      x.extractLsb' format.fractionBits format.exponentBits = BitVec.allOnes format.exponentBits ∧
        x.extractLsb' 0 format.fractionBits ≠ 0#format.fractionBits := by
  rw [FpFormat.isNaN_iff h, FpFormat.exponent_eq_max_iff, Ne, FpFormat.fraction_eq_zero_iff]

/-- The infinities of a format that has them, in the fields' bits. -/
theorem FpFormat.value_eq_infinity_iff_bits {format : FpFormat} (h : format.hasSpecials = true) (x : DWord) :
    format.value x = .infinity (format.sign x) ↔
      x.extractLsb' format.fractionBits format.exponentBits = BitVec.allOnes format.exponentBits ∧
        x.extractLsb' 0 format.fractionBits = 0#format.fractionBits := by
  rw [FpFormat.value_eq_infinity_iff h, FpFormat.exponent_eq_max_iff, FpFormat.fraction_eq_zero_iff]

/-- Every pattern of the alternative half-precision format is a finite number, at the top exponent too. -/
theorem FpFormat.value_altHalf_finite (x : DWord) :
    ∃ (significand : Nat) (power : Int), FpFormat.altHalf.value x = .finite (FpFormat.altHalf.sign x) significand power ∧
      significand < 2 ^ 11 ∧ -24 ≤ power ∧ power ≤ 6 := by
  have hfraction : FpFormat.altHalf.fraction x < 2 ^ 10 := FpFormat.altHalf.fraction_lt x
  have hexponent : FpFormat.altHalf.exponent x < 2 ^ 5 := BitVec.isLt _
  by_cases he : FpFormat.altHalf.exponent x = 0
  · refine ⟨FpFormat.altHalf.fraction x, -24, ?_, by omega, by decide, by decide⟩
    simp [FpFormat.value, FpFormat.hasSpecials, FpFormat.bias, FpFormat.fractionBits, he]
  · refine ⟨2 ^ 10 + FpFormat.altHalf.fraction x, FpFormat.altHalf.exponent x - 25, ?_, by omega, by omega, by omega⟩
    simp [FpFormat.value, FpFormat.hasSpecials, FpFormat.bias, FpFormat.fractionBits, he]

/-- Settles O55: each format has its fields at the table's bits. -/
theorem formatsEncodeNaNsAndInfinitiesAsTheTable : Obligations.FormatsEncodeNaNsAndInfinitiesAsTheTable := fun x =>
  ⟨FpFormat.isNaN_iff_bits (format := .half) rfl x, FpFormat.isNaN_iff_bits (format := .arith .single) rfl x,
    FpFormat.isNaN_iff_bits (format := .arith .double) rfl x,
    FpFormat.value_eq_infinity_iff_bits (format := .half) rfl x,
    FpFormat.value_eq_infinity_iff_bits (format := .arith .single) rfl x,
    FpFormat.value_eq_infinity_iff_bits (format := .arith .double) rfl x, FpFormat.value_altHalf_finite x⟩

/-- The elements of the result stand in the order of their operands. -/
theorem fpResult_getElem? {op : FpOperation} (s : State) {k : Nat} {operands : List DWord}
    (h : op.elements[k]? = some operands) : (fpResult op s)[k]? = some (fpElement op s k operands) := by
  simp [fpResult, h]

/-- An element that a NaN operand reaches, in a format that has NaNs, is the Default NaN or one of those operands
propagated (R154). -/
theorem fpElement_of_nan {op : FpOperation} {s : State} {src dst : FpFormat} (k : Nat) {operands : List DWord} {x : DWord}
    (hsrc : op.kind.source s.f.control.ahp = some src) (hdst : op.kind.result s.f.control.ahp = some dst)
    (hspecials : dst.hasSpecials = true) (hx : x ∈ operands) (hnan : src.isNaN x = true) :
    ∃ z ∈ operands, src.isNaN z = true ∧ fpElement op s k operands =
      if (fpControl op s).dn then Config.defaultNaN.bits dst
      else ((fpAnswer op s).propagation k).bits src dst z := by
  have hsrc' : op.kind.source (fpControl op s).ahp = some src := by
    rw [fpControl_ahp, FpKind.source_and_convertsHalf, hsrc]
  have hdst' : op.kind.result (fpControl op s).ahp = some dst := by
    rw [fpControl_ahp, FpKind.result_and_convertsHalf, hdst]
  obtain ⟨z, hz, hznan, helement⟩ := FpOperation.nanElement_eq ((fpAnswer op s).propagation k) dst hsrc' hx hnan
  exact ⟨z, hz, hznan, by simp [fpElement, hdst', hspecials, helement]⟩

/-- Settles O54, by whether Default NaN is in force for the operation. -/
theorem naNOperandsReturnANaN : Obligations.NaNOperandsReturnANaN := by
  intro op s src dst k operands x henabled hsrc hdst halt hk hx hnan
  have hspecials : dst.hasSpecials = true := dst.hasSpecials_iff.mpr halt
  obtain ⟨z, hz, hznan, helement⟩ := fpElement_of_nan k hsrc hdst hspecials hx hnan
  refine ⟨_, _, _, fpOperation_of_enabled op henabled, fpResult_getElem? s hk, ?_⟩
  rw [helement, ← fpControl_dn]
  by_cases hdn : (fpControl op s).dn = true
  · rw [if_pos hdn]
    refine ⟨FpFormat.isNaN_freeNaN_bits hspecials _, fun _ => rfl, fun hdn0 hnot => ?_⟩
    rcases (fpControl_dn op s).mp hdn with h | h
    · simp [h] at hdn0
    · exact absurd h hnot
  · rw [if_neg hdn]
    have hpropagates := ((fpAnswer op s).propagation k).propagates src z hspecials
    exact ⟨hpropagates.1, fun h => absurd h hdn, fun _ _ => ⟨z, hz, hznan, hpropagates⟩⟩

end Sys2Proof.Machine
end

section
/-! What a completed instruction had a right to (R60, R196): the registers EL0 reaches, and who can change EN. -/

namespace Sys2Proof.Machine

/-! A completed instruction performed its access, or was an A32 no-op. -/

/-- A completed `MRS` had a right to its register (R110). -/
theorem acc64_ne_none_of_readSys64_next {reg : SysReg64} {rt : BitVec 5} {s t : State}
    (h : readSys64 reg rt s = .next t) : acc64 reg s ≠ .none := by
  rcases readSys64_cases reg rt s with ⟨-, h'⟩ | ⟨-, -, h'⟩ | ⟨-, hright, -⟩
  · simp [h'] at h
  · simp [h'] at h
  · exact hright

/-- A completed `MSR` had a right to its register (R111). -/
theorem acc64_ne_none_of_writeSys64_next {reg : SysReg64} {rt : BitVec 5} {s t : State}
    (h : writeSys64 reg rt s = .next t) : acc64 reg s ≠ .none := by
  rcases writeSys64_cases reg rt s with ⟨-, h'⟩ | ⟨-, -, h'⟩ | ⟨-, hro, -⟩ | ⟨-, hrw, -⟩ | ⟨-, hrw, -⟩
  · simp [h'] at h
  · simp [h'] at h
  · simp [hro]
  · simp [hrw]
  · simp [hrw]

/-- A completed AArch32 instruction had a right to its register, or is an A32 instruction whose condition failed (R130,
R143). -/
theorem exec_access32_right_or_noOp {i : Instr} {form : Form32} {ok : Bool} {reg : SysReg32} {access : Access} {s t : State}
    {p : Host.Outcome State Fault Refusal} (run : exec i s = access32 form ok reg access s p) (isa : i.isa = form.isa)
    (hcond : conditionPassed s (condOf i) = form.passes s) (h : exec i s = .next t) :
    rightOf s (.a32 reg) ≠ .none ∨ (i.isa = .a32 ∧ conditionPassed s (condOf i) = false ∧ OnlyPcAdvanced s t) := by
  rcases access32_next_cases (run ▸ h) with ⟨-, ⟨hadvanced, hfailed⟩ | ⟨-, hright, -⟩⟩
  · exact .inr ⟨isa.trans (Form32.isa_of_not_passes hfailed), hcond.trans hfailed, hadvanced⟩
  · exact .inl hright

/-- A completed instruction had a right to the register it accesses, or is an A32 instruction whose condition failed. -/
theorem exec_next_right_or_noOp {i : Instr} {s t : State} (h : exec i s = .next t) :
    (∃ reg access, accessOf i = some (reg, access) ∧ rightOf s reg ≠ .none) ∨
    (i.isa = .a32 ∧ conditionPassed s (condOf i) = false ∧ OnlyPcAdvanced s t) := by
  cases exec_shape i s with
  | readSys64 reg rt run _ _ _ own =>
    obtain ⟨hacc, -⟩ := own
    exact .inl ⟨_, _, hacc, acc64_ne_none_of_readSys64_next (run ▸ h)⟩
  | writeSys64 reg rt run _ _ _ own =>
    obtain ⟨hacc, -⟩ := own
    exact .inl ⟨_, _, hacc, acc64_ne_none_of_writeSys64_next (run ▸ h)⟩
  | readSys32 form reg rt run isa _ _ own =>
    obtain ⟨hacc, hcond⟩ := own
    exact (exec_access32_right_or_noOp run isa hcond h).imp_left fun hright => ⟨_, _, hacc, hright⟩
  | writeSys32 form reg rt run isa _ _ _ own =>
    obtain ⟨hacc, hcond⟩ := own
    exact (exec_access32_right_or_noOp run isa hcond h).imp_left fun hright => ⟨_, _, hacc, hright⟩
  | transferFlags form run isa _ _ _ own =>
    obtain ⟨hacc, hcond⟩ := own
    exact (exec_access32_right_or_noOp run isa hcond h).imp_left fun hright => ⟨_, _, hacc, hright⟩
  | refused r run => simp [run] at h

/-! The rights EL0 has. -/

/-- At EL0 no AArch32 register but FPSCR has a right (R42, R49, R51). -/
theorem acc32_el0_eq_none {reg : SysReg32} {s : State} (hel : s.ctx.el = .el0) (hreg : reg ≠ .fpscr) :
    acc32 reg s = .none := by
  rcases acc32_cases reg s with ⟨-, h⟩ | ⟨-, h⟩ | ⟨hdash, -⟩
  · exact h
  · exact h
  · exact absurd ((table32_dash_iff _ _ _).mpr ⟨hel, hreg⟩) hdash

/-- EL0 has a right to FPCR, FPSR and FPSCR alone (R27, R30, R44). -/
theorem rightOf_el0 {reg : SysReg} {s : State} (hel : s.ctx.el = .el0) (h : rightOf s reg ≠ .none) :
    reg ∈ [SysReg.a64 .fpcr, .a64 .fpsr, .a32 .fpscr] := by
  cases reg with
  | a64 reg =>
    obtain ⟨-, htable⟩ := (acc64_ne_none_iff reg s).mp h
    rw [hel] at htable
    revert htable
    cases reg <;> decide
  | a32 reg =>
    have hreg : reg = .fpscr := not_not.mp fun hne => h (acc32_el0_eq_none hel hne)
    simp [hreg]

/-- The instructions that access FPCR, FPSR or FPSCR. -/
theorem instr_of_accessOf_el0_register {i : Instr} {reg : SysReg} {access : Access} (hacc : accessOf i = some (reg, access))
    (hreg : reg ∈ [SysReg.a64 .fpcr, .a64 .fpsr, .a32 .fpscr]) :
    (∃ rt, i ∈ [Instr.mrsFpcr rt, .msrFpcr rt, .mrsFpsr rt, .msrFpsr rt]) ∨
    (∃ cond rt, i ∈ [Instr.vmrsFpscrA32 cond rt, .vmsrFpscrA32 cond rt, .vmrsApsrFpscrA32 cond, .vmrsFpscrT32 rt,
      .vmsrFpscrT32 rt, .vmrsApsrFpscrT32]) := by
  cases i
  case mrsFpcr rt | msrFpcr rt | mrsFpsr rt | msrFpsr rt => exact .inl ⟨rt, by simp⟩
  case vmrsFpscrA32 cond rt | vmsrFpscrA32 cond rt => exact .inr ⟨cond, rt, by simp⟩
  case vmrsApsrFpscrA32 cond => exact .inr ⟨cond, 0#4, by simp⟩
  case vmrsFpscrT32 rt | vmsrFpscrT32 rt => exact .inr ⟨0#4, rt, by simp⟩
  case vmrsApsrFpscrT32 => exact .inr ⟨0#4, 0#4, by simp⟩
  all_goals cases hacc <;> simp at hreg

/-- Settles O37: a completed access had a right, and EL0 has a right to three registers only. -/
theorem el0ReachesOnlyItsOwnRegisters : Obligations.El0ReachesOnlyItsOwnRegisters := by
  intro i s t hel h
  rcases exec_next_right_or_noOp h with ⟨reg, access, hacc, hright⟩ | hnoOp
  · exact or_assoc.mp (.inl (instr_of_accessOf_el0_register hacc (rightOf_el0 hel hright)))
  · exact .inr (.inr hnoOp)

/-! Who changes EN. -/

/-- Of the AArch64 registers FPEXC32_EL2 alone holds EN (R38, R120). -/
theorem writeFields64_en (w : Word) (s : State) {reg : SysReg64} (h : reg ≠ .fpexc32El2) :
    (writeFields64 w s reg).en = s.en := by
  cases reg
  case fpexc32El2 => exact absurd rfl h
  all_goals rfl

/-- Of the AArch32 registers FPEXC alone holds EN (R50, R139). -/
theorem writeFields32_en (w : Word) (s : State) {reg : SysReg32} (h : reg ≠ .fpexc) :
    (writeFields32 w s reg).en = s.en := by
  cases reg
  case fpexc => exact absurd rfl h
  all_goals rfl

/-- A completed instruction that does not write EN keeps it. -/
theorem exec_keeps_en {i : Instr} {s t : State} (h : exec i s = .next t) (hno : ¬ writesEn i = true) : t.en = s.en := by
  rcases exec_next_cases h with ⟨rt, v, rfl, -⟩ | ⟨rt, v, rfl, -⟩ | ⟨w, reg, rfl, -, -, -, -, -, hen⟩ |
    ⟨w, reg, rfl, -, -, -, -, -, hen⟩ | ⟨rfl, -⟩ | ⟨rfl, -⟩
  · simp
  · simp
  · exact writeFields64_en w s (mt hen.mpr hno)
  · exact writeFields32_en w s (mt hen.mpr hno)
  · rfl
  · rfl

/-- An instruction that changes EN writes it, with a right to the register it writes it under. -/
theorem writesEn_and_right_of_en_ne {i : Instr} {s t : State} (h : exec i s = .next t) (hne : t.en ≠ s.en) :
    writesEn i = true ∧ ∃ reg access, accessOf i = some (reg, access) ∧ rightOf s reg ≠ .none := by
  refine ⟨not_not.mp fun hno => hne (exec_keeps_en h hno), ?_⟩
  rcases exec_next_right_or_noOp h with hright | ⟨-, -, rfl⟩
  · exact hright
  · exact absurd rfl hne

/-- FPEXC32_EL2 has a right at EL2 and EL3 only (R39). -/
theorem el2_or_el3_of_right_fpexc32El2 {s : State} (h : rightOf s (.a64 .fpexc32El2) ≠ .none) :
    s.ctx.el = .el2 ∨ s.ctx.el = .el3 := by
  obtain ⟨-, htable⟩ := (acc64_ne_none_iff .fpexc32El2 s).mp h
  revert htable
  cases s.ctx.el <;> decide

/-- FPEXC has no right at EL0 (R51). -/
theorem ne_el0_of_right_fpexc {s : State} (h : rightOf s (.a32 .fpexc) ≠ .none) : s.ctx.el ≠ .el0 :=
  fun hel => h (acc32_el0_eq_none hel (by decide))

/-- A completed instruction that changes EN is `MSR FPEXC32_EL2` at EL2 or EL3, or `VMSR FPEXC` above EL0. -/
theorem privilegedWrite_of_en_ne {i : Instr} {s t : State} (h : exec i s = .next t) (hne : t.en ≠ s.en) :
    ((∃ rt, i = .msrFpexc32El2 rt) ∧ (s.ctx.el = .el2 ∨ s.ctx.el = .el3)) ∨
    (((∃ cond rt, i = .vmsrFpexcA32 cond rt) ∨ ∃ rt, i = .vmsrFpexcT32 rt) ∧ s.ctx.el ≠ .el0) := by
  obtain ⟨hwrites, reg, access, hacc, hright⟩ := writesEn_and_right_of_en_ne h hne
  cases i
  case msrFpexc32El2 rt => cases hacc; exact .inl ⟨⟨rt, rfl⟩, el2_or_el3_of_right_fpexc32El2 hright⟩
  case vmsrFpexcA32 cond rt => cases hacc; exact .inr ⟨.inl ⟨cond, rt, rfl⟩, ne_el0_of_right_fpexc hright⟩
  case vmsrFpexcT32 rt => cases hacc; exact .inr ⟨.inr ⟨rt, rfl⟩, ne_el0_of_right_fpexc hright⟩
  all_goals cases hwrites

/-- Settles O36: a change of EN is a privileged write, and a step at EL0 is an instruction at EL0. -/
theorem onlyPrivilegedWritesChangeEn : Obligations.OnlyPrivilegedWritesChangeEn := by
  refine ⟨fun i s t h hne => privilegedWrite_of_en_ne h hne, fun s t hel hstep => not_not.mp fun hne => ?_⟩
  obtain ⟨i, hexec⟩ := exec_of_step_next hstep
  rcases privilegedWrite_of_en_ne hexec hne with ⟨-, hel2 | hel3⟩ | ⟨-, habove⟩
  · simp [hel] at hel2
  · simp [hel] at hel3
  · exact habove hel

end Sys2Proof.Machine
end

section
/-! The enabling sequence: FPEXC written, and FPSCR read by the next instruction (R77, R214); and the state after reset
(R211). -/

namespace Sys2Proof.Machine

/-- A register write changes neither the condition table nor APSR, so a form that passes before it passes after it. -/
theorem Form32.passes_writeFields32_advance (form : Form32) (w : Word) (s : State) (reg : SysReg32) :
    form.passes (writeFields32 w s reg).advance = form.passes s := by
  cases form
  · simp [Form32.passes, conditionPassed]
  · rfl

/-- Where FPSCR is granted and enabled, a `VMRS FPSCR` that runs reads the view of the store into Rt (R133). -/
theorem readSys32_fpscr_next {form : Form32} {rt : BitVec 4} {s : State}
    (hchecks : s.ctx.isa = form.isa ∧ (form.condAdmitted && form.rtAdmitted rt) = true ∧ form.passes s = true)
    (hgrant : Granted32 .fpscr s) (hen : EnabledByEn s) :
    readSys32 form .fpscr rt s = .next (s.writeR rt (fpscrView s.f)).advance := by
  obtain ⟨hread, -⟩ := access32_outcomes (access := .read) (.next (s.writeR rt (fpscrView s.f)).advance)
    hchecks (allowed32_fpscr_iff s) (.inr rfl)
  exact hread ⟨hgrant, hen⟩

/-- A `VMSR FPEXC` of a value with EN's bit set completes above EL0 where FPEXC is granted, and the next `VMRS FPSCR` is no
longer disabled by EN: where FPSCR is granted it reads the store, which the write left as it was (R133, R139). -/
theorem writeSys32_fpexc_then_readSys32_fpscr {form : Form32} {rt rt2 : BitVec 4} {s : State} {v : Word}
    (hchecks : s.ctx.isa = form.isa ∧ (form.condAdmitted && form.rtAdmitted rt) = true ∧ form.passes s = true)
    (hok2 : (form.condAdmitted && form.rtAdmitted rt2) = true) (hel : s.ctx.el ≠ .el0)
    (hfpexc : Granted32 .fpexc s) (hfpscr : Granted32 .fpscr s) (hv : s.r[rt.toNat]? = some v)
    (hbit : v.getLsbD 30 = true) (haccept : WriteAccepted s v 0xBFFFF8FF#32 0x700#32) :
    ∃ t u, writeSys32 form .fpexc rt s = .next t ∧ t.en = true ∧ readSys32 form .fpscr rt2 t = .next u ∧
      OnlyRWritten t u rt2 (fpscrView s.f) := by
  have hallowed := allowed32_iff_of_not_dependsOnEn (reg := .fpexc) s (by decide) rfl
  obtain ⟨hwrite, -, -⟩ := writeSys32_outcomes hchecks hallowed rfl hv
  obtain ⟨hi, -, hp⟩ := hchecks
  have hpass := (form.passes_writeFields32_advance v s .fpexc).trans hp
  have henabled : EnabledByEn (writeFields32 v s .fpexc).advance := .inl hbit
  exact ⟨_, _, hwrite ⟨⟨hel, hfpexc⟩, haccept⟩, hbit, readSys32_fpscr_next ⟨hi, hok2, hpass⟩ hfpscr henabled,
    onlyRWritten_writeR _ rt2 _⟩

/-- Settles O40: the written EN opens FPSCR in either form, and the condition that let the write run still holds. -/
theorem enablingSequenceOpensFpscr : Obligations.EnablingSequenceOpensFpscr := by
  intro cond rt rt2 s v hel hfpexc hfpscr hv hbit haccept
  refine ⟨fun hrun hrt2 => ?_, fun hrun h13 h15 => ?_⟩
  · have ⟨_, hcond, _, _⟩ := hrun
    exact writeSys32_fpexc_then_readSys32_fpscr (checks_of_runsA32 hrun) (admittedA32 hcond hrt2) hel hfpexc hfpscr hv
      hbit haccept
  · exact writeSys32_fpexc_then_readSys32_fpscr (checks_of_runsT32 hrun) (admittedT32 h13 h15) hel hfpexc hfpscr hv
      hbit haccept

/-- Reset, at whatever program counter, meets the invariant of a run in each AArch64 context the platform has: the program
text is empty, and only AArch32 bounds the program counter. -/
theorem State.resetIn_inv_of_a64 {ctx : Ctx} {platform : Platform} (pc : BitVec 64) (hisa : ctx.isa = .a64)
    (hallowed : (State.resetIn ctx pc platform).contextAllowed = true) : (State.resetIn ctx pc platform).Inv := by
  refine ⟨Memory.wf_nil, hallowed, fun haarch32 => ?_⟩
  simp [State.resetIn, hisa, Isa.execState] at haarch32

/-- Settles O47: the context the model names is A64 at EL3, and its platform has every level in AArch64. -/
theorem resetMeetsTheRunConditions : Obligations.ResetMeetsTheRunConditions :=
  State.resetIn_inv_of_a64 0#64 rfl rfl

end Sys2Proof.Machine
end
